-- ==== Sys2Proof/Word.lean ====
section
/-! DEFINITION. The words of TLC: the byte of a request, of a bus transfer and of a register. -/

namespace Sys2Proof

/-- An 8-bit value, `u8` of rule R9. -/
abbrev Byte := BitVec 8

/-- The bit pattern of an IEEE 754 binary64 value, `f64` of rule R93. -/
abbrev F64 := BitVec 64

end Sys2Proof
end

