-- ==== Sys2Proof/Syntax.lean ====
section
/-! DEFINITION. The requests of TLC, one constructor per row of the op-code map (30_encoding.md rule R92).
Operands are kept as the bytes of the request: a `bool` operand that is neither 0x00 nor 0x01 and an
operand out of its range are requests with a response (rules R93, R312), not decoding failures. An `i8`
operand is its byte, read in two's complement where it is used; an `f64` operand is its 64-bit pattern. -/

namespace Sys2Proof

/-- A request of rule R92. -/
inductive Instr where
  -- U1: codec and sensor channels (42_codec.md)
  | tcDecodeA (hi lo ext : Byte)
  | tcEncodeA (x : F64) (ext : Byte)
  | tcDecodeB (hi lo res : Byte)
  | tcEncodeB (x : F64) (res : Byte)
  | scRead (ch : Byte)
  | scWriteThreshold (ch which : Byte) (x : F64)
  -- U2: expander (40_expander.md)
  | xmWrite (reg v : Byte)
  | xmRead (reg : Byte)
  | xmInit
  | xmWriteB (v : Byte)
  | xmSetRed (on : Byte)
  | xmSetGreen (on : Byte)
  | xmSetBacklight (on : Byte)
  | xmAckInt
  | xmReadButtons
  | xmTestButton (mask id : Byte)
  -- U3: display (41_lcd.md)
  | lcdSend (b rs : Byte)
  | lcdCommand (b : Byte)
  | lcdData (b : Byte)
  | lcdInit
  | lcdReset
  | lcdClear
  | lcdHome
  | lcdSetDisplay (on : Byte)
  | lcdSetCursor (on : Byte)
  | lcdSetBlink (on : Byte)
  | lcdLeftToRight
  | lcdRightToLeft
  | lcdSetAutoscroll (on : Byte)
  | lcdScrollLeft
  | lcdScrollRight
  | lcdSetPos (col row : Byte)
  | lcdMessage (text : List Byte)
  | lcdCreateChar (slot : Byte) (bitmap : List Byte)
  -- U4: scheduler (43_scheduler.md)
  | schedStart
  | schedWait
  | schedIterate
  | schedRestartDisplay
  | schedWake
  | schedStop
  | schedSnapshot
  | schedRun
deriving DecidableEq, Repr

end Sys2Proof
end

