-- ==== Sys2Proof/Decode.lean ====
section
/-! DEFINITION. Decoding a request from its bytes and encoding it again (30_encoding.md rules R90 to R95). -/

namespace Sys2Proof

/-- Why a byte string is no request. -/
inductive DecodeError where
  /-- the port holds no byte -/
  | empty
  /-- a reserved op code (rule R94) -/
  | reserved (op : Byte)
  /-- the bytes end before the op's length (rule R95) -/
  | short (op : Byte)
deriving DecidableEq, Repr

/-- A decoded request and the bytes after it. -/
abbrev Decoded := Except DecodeError (Instr × List Byte)

/-- The eight bytes of a 64-bit value, most significant first (rule R93). -/
def be64 (x : BitVec 64) : List Byte :=
  [x.extractLsb' 56 8, x.extractLsb' 48 8, x.extractLsb' 40 8, x.extractLsb' 32 8,
   x.extractLsb' 24 8, x.extractLsb' 16 8, x.extractLsb' 8 8, x.extractLsb' 0 8]

/-- The 64-bit value of eight bytes, most significant first (rule R93). -/
def ofBe64 (a b c d e f g h : Byte) : BitVec 64 := a ++ b ++ c ++ d ++ e ++ f ++ g ++ h

/-- A request with one operand byte. -/
def take1 (op : Byte) (k : Byte → Instr) : List Byte → Decoded
  | a :: r => .ok (k a, r)
  | _ => .error (.short op)

/-- A request with two operand bytes. -/
def take2 (op : Byte) (k : Byte → Byte → Instr) : List Byte → Decoded
  | a :: b :: r => .ok (k a b, r)
  | _ => .error (.short op)

/-- A request with three operand bytes. -/
def take3 (op : Byte) (k : Byte → Byte → Byte → Instr) : List Byte → Decoded
  | a :: b :: c :: r => .ok (k a b c, r)
  | _ => .error (.short op)

/-- Reads an `f64` operand and hands the rest on. -/
def takeF64 (op : Byte) (k : F64 → List Byte → Decoded) : List Byte → Decoded
  | a :: b :: c :: d :: e :: f :: g :: h :: r => k (ofBe64 a b c d e f g h) r
  | _ => .error (.short op)

/-- The first `n` bytes and the rest, if there are that many. -/
def splitBytes : Nat → List Byte → Option (List Byte × List Byte)
  | 0, r => some ([], r)
  | _ + 1, [] => none
  | n + 1, b :: r =>
    match splitBytes n r with
    | some (bs, rest) => some (b :: bs, rest)
    | none => none

/-- Reads a byte string operand: its length byte, then that many bytes (rule R93). -/
def takeBytes (op : Byte) (k : List Byte → Instr) : List Byte → Decoded
  | n :: r =>
    match splitBytes n.toNat r with
    | some (bs, rest) => .ok (k bs, rest)
    | none => .error (.short op)
  | _ => .error (.short op)

/-- The operands of op code `op` (rule R92), the rows in the table's order. -/
def decodeBody (op : Byte) (bs : List Byte) : Decoded :=
  match op.toNat with
  | 0x00 => take3 op .tcDecodeA bs
  | 0x01 => takeF64 op (fun x => take1 op (.tcEncodeA x)) bs
  | 0x02 => take3 op .tcDecodeB bs
  | 0x03 => takeF64 op (fun x => take1 op (.tcEncodeB x)) bs
  | 0x04 => take1 op .scRead bs
  | 0x05 =>
    match bs with
    | ch :: which :: r => takeF64 op (fun x r => .ok (.scWriteThreshold ch which x, r)) r
    | _ => .error (.short op)
  | 0x20 => take2 op .xmWrite bs
  | 0x21 => take1 op .xmRead bs
  | 0x22 => .ok (.xmInit, bs)
  | 0x23 => take1 op .xmWriteB bs
  | 0x24 => take1 op .xmSetRed bs
  | 0x25 => take1 op .xmSetGreen bs
  | 0x26 => take1 op .xmSetBacklight bs
  | 0x27 => .ok (.xmAckInt, bs)
  | 0x28 => .ok (.xmReadButtons, bs)
  | 0x29 => take2 op .xmTestButton bs
  | 0x40 => take2 op .lcdSend bs
  | 0x41 => take1 op .lcdCommand bs
  | 0x42 => take1 op .lcdData bs
  | 0x43 => .ok (.lcdInit, bs)
  | 0x44 => .ok (.lcdReset, bs)
  | 0x45 => .ok (.lcdClear, bs)
  | 0x46 => .ok (.lcdHome, bs)
  | 0x47 => take1 op .lcdSetDisplay bs
  | 0x48 => take1 op .lcdSetCursor bs
  | 0x49 => take1 op .lcdSetBlink bs
  | 0x4A => .ok (.lcdLeftToRight, bs)
  | 0x4B => .ok (.lcdRightToLeft, bs)
  | 0x4C => take1 op .lcdSetAutoscroll bs
  | 0x4D => .ok (.lcdScrollLeft, bs)
  | 0x4E => .ok (.lcdScrollRight, bs)
  | 0x4F => take2 op .lcdSetPos bs
  | 0x50 => takeBytes op .lcdMessage bs
  | 0x51 =>
    match bs with
    | slot :: r => takeBytes op (.lcdCreateChar slot) r
    | _ => .error (.short op)
  | 0x60 => .ok (.schedStart, bs)
  | 0x61 => .ok (.schedWait, bs)
  | 0x62 => .ok (.schedIterate, bs)
  | 0x63 => .ok (.schedRestartDisplay, bs)
  | 0x64 => .ok (.schedWake, bs)
  | 0x65 => .ok (.schedStop, bs)
  | 0x66 => .ok (.schedSnapshot, bs)
  | 0x67 => .ok (.schedRun, bs)
  | _ => .error (.reserved op)

/-- Decodes the first request of a byte string and hands back the bytes after it (rules R90, R113). -/
def decode : List Byte → Decoded
  | [] => .error .empty
  | op :: bs => decodeBody op bs

/-- A byte string operand: its length byte, then its bytes (rule R93). -/
def encodeBytes (bs : List Byte) : List Byte := BitVec.ofNat 8 bs.length :: bs

/-- The byte string of a request (rules R90, R92, R93). -/
def encode : Instr → List Byte
  | .tcDecodeA hi lo ext => [0x00, hi, lo, ext]
  | .tcEncodeA x ext => 0x01 :: be64 x ++ [ext]
  | .tcDecodeB hi lo res => [0x02, hi, lo, res]
  | .tcEncodeB x res => 0x03 :: be64 x ++ [res]
  | .scRead ch => [0x04, ch]
  | .scWriteThreshold ch which x => 0x05 :: ch :: which :: be64 x
  | .xmWrite reg v => [0x20, reg, v]
  | .xmRead reg => [0x21, reg]
  | .xmInit => [0x22]
  | .xmWriteB v => [0x23, v]
  | .xmSetRed on => [0x24, on]
  | .xmSetGreen on => [0x25, on]
  | .xmSetBacklight on => [0x26, on]
  | .xmAckInt => [0x27]
  | .xmReadButtons => [0x28]
  | .xmTestButton mask id => [0x29, mask, id]
  | .lcdSend b rs => [0x40, b, rs]
  | .lcdCommand b => [0x41, b]
  | .lcdData b => [0x42, b]
  | .lcdInit => [0x43]
  | .lcdReset => [0x44]
  | .lcdClear => [0x45]
  | .lcdHome => [0x46]
  | .lcdSetDisplay on => [0x47, on]
  | .lcdSetCursor on => [0x48, on]
  | .lcdSetBlink on => [0x49, on]
  | .lcdLeftToRight => [0x4A]
  | .lcdRightToLeft => [0x4B]
  | .lcdSetAutoscroll on => [0x4C, on]
  | .lcdScrollLeft => [0x4D]
  | .lcdScrollRight => [0x4E]
  | .lcdSetPos col row => [0x4F, col, row]
  | .lcdMessage text => 0x50 :: encodeBytes text
  | .lcdCreateChar slot bitmap => 0x51 :: slot :: encodeBytes bitmap
  | .schedStart => [0x60]
  | .schedWait => [0x61]
  | .schedIterate => [0x62]
  | .schedRestartDisplay => [0x63]
  | .schedWake => [0x64]
  | .schedStop => [0x65]
  | .schedSnapshot => [0x66]
  | .schedRun => [0x67]

/-- The requests REQ may issue (rules R95, R322). -/
def Instr.reqMayIssue : Instr → Bool
  | .schedWake | .schedStop | .schedSnapshot => true
  | .tcDecodeA _ _ _ | .tcEncodeA _ _ | .tcDecodeB _ _ _ | .tcEncodeB _ _ | .scRead _
  | .scWriteThreshold _ _ _ | .xmWrite _ _ | .xmRead _ | .xmInit | .xmWriteB _ | .xmSetRed _
  | .xmSetGreen _ | .xmSetBacklight _ | .xmAckInt | .xmReadButtons | .xmTestButton _ _
  | .lcdSend _ _ | .lcdCommand _ | .lcdData _ | .lcdInit | .lcdReset | .lcdClear | .lcdHome
  | .lcdSetDisplay _ | .lcdSetCursor _ | .lcdSetBlink _ | .lcdLeftToRight | .lcdRightToLeft
  | .lcdSetAutoscroll _ | .lcdScrollLeft | .lcdScrollRight | .lcdSetPos _ _ | .lcdMessage _
  | .lcdCreateChar _ _ | .schedStart | .schedWait | .schedIterate | .schedRestartDisplay
  | .schedRun => false

/-! ## The host's view of a table row: the bits of a request as one number -/

/-- The longest request: 0x51, the slot, the length byte and 255 bytes (rule R92). -/
def maxRequestLength : Nat := 258

/-- The first `n` bytes of `w`, byte 0 in bits 7..0. -/
def bytesOfNat : Nat → Nat → List Byte
  | 0, _ => []
  | n + 1, w => BitVec.ofNat 8 w :: bytesOfNat n (w / 256)

/-- The request whose low `nbits` bits are `w`, every byte above them 0, up to the longest request. -/
def tableBytes (nbits w : Nat) : List Byte :=
  bytesOfNat ((nbits + 7) / 8) w ++ List.replicate (maxRequestLength - (nbits + 7) / 8) 0

/-- What the decoder reads from a table row's word. -/
def decodeTableWord (nbits w : Nat) : Option Instr :=
  match decode (tableBytes nbits w) with
  | .ok (i, _) => some i
  | .error _ => none

/-- The bytes of the request that `tableBytes` begins with, without the bytes after it. -/
def tableRequest (nbits w : Nat) : List Byte :=
  match decode (tableBytes nbits w) with
  | .ok (i, _) => (tableBytes nbits w).take (encode i).length
  | .error _ => tableBytes nbits w

end Sys2Proof
end

