-- ==== Sys2Proof/Config.lean ====
section
/-! DEFINITION. The parameters of TLC (00_scope.md rule R7), the draws of its environment
(70_reset_and_hazards.md rule R358), and the values the spec leaves open, as opaque constants. -/

namespace Sys2Proof

/-- Codec variant of a channel (42_codec.md rule R235). -/
inductive Variant where
  | a
  | b
deriving DecidableEq, Repr, Inhabited

/-- The resolution R of variant B, "in {9,10,11,12}" (rule R7). -/
inductive Resolution where
  | r9
  | r10
  | r11
  | r12
deriving DecidableEq, Repr, Inhabited

/-- One sensor channel's configuration `CH[i]` (10_state.md rule R22). `ext` is the extended-mode bit. -/
structure Channel where
  addr : BitVec 7
  variant : Variant
  ext : Bool
  res : Resolution
deriving DecidableEq, Repr, Inhabited

/-- `ENC_TOP_POLICY` (rule R7): what encode does with a code above the largest positive code. -/
inductive EncTop where
  | saturate
  | wrap
deriving DecidableEq, Repr, Inhabited

/-- The five display formats (rules R40, R110). -/
inductive DisplayFormat where
  | combined
  | inside
  | outside
  | celsius
  | fahrenheit
deriving DecidableEq, Repr, Inhabited

/-- An exact temperature, `sixteenths / 16` degC. Every temperature TLC holds is a code times `2^-k` with
`k ≤ 4` (42_codec.md rule R234), so it is a whole number of sixteenths (DEDUCED, log 9). -/
structure Temp where
  sixteenths : Int
deriving DecidableEq, Repr, Inhabited

/-- The rational number of degrees Celsius a `Temp` stands for (rule R10). -/
def Temp.celsius (t : Temp) : Rat := (t.sixteenths : Rat) / 16

/-- The two agents that issue requests (43_scheduler.md rule R260). ENV issues none. -/
inductive Agent where
  | loop
  | req
deriving DecidableEq, Repr, Inhabited

/-- What ENV does at one moment besides letting time pass (rule R358): set the interrupt line's
electrical level, or let request bytes arrive at an agent's port. -/
inductive EnvAct where
  | line (high : Bool)
  | request (agent : Agent) (bytes : List Byte)
deriving DecidableEq, Repr, Inhabited

/-- The drawn outcome of a transaction (20_memory.md rule R62): BusError, or success with these bytes,
handed out in order to the transaction's reads. A read beyond the list's end gets 0x00; since the list is
any list, this shape rules no outcome out (log 22). -/
inductive TxnDraw where
  | busError
  | success (data : List Byte)
deriving DecidableEq, Repr, Inhabited

/-- One draw of ENV, for one step of LOOP: first `NOW` advances by `dt` ms, then the acts happen in order;
if the step is a transaction, `outcome` is its outcome (log 3). -/
structure Draw where
  dt : Nat
  acts : List EnvAct
  outcome : TxnDraw
deriving DecidableEq, Repr, Inhabited

/-- The open parameters of a run (rules R7, R343): fixed before SCHED.START and written by no operation. -/
structure Params where
  logPeriod : Nat
  displayPeriod : Nat
  waitTimeout : Nat
  encTop : EncTop
  unknownText : List Byte
deriving DecidableEq, Repr, Inhabited

/-! ## Free values. None has a body: nothing can be proved of them but their type. -/

/-- `NOW` at reset: "any natural" (rules R340, R358; log 1). -/
opaque Config.resetNow : Nat

/-- The n-th draw of ENV that the state does not list (rule R358; log 2). -/
opaque Config.freeDraw : Nat → Draw

/-- `LOG_PERIOD - 1`: the period is OPEN and greater than 0 (rule R7, D37; log 12). -/
opaque Config.logPeriodPred : Nat

/-- `DISPLAY_PERIOD - 1` (rule R7, D37; log 12). -/
opaque Config.displayPeriodPred : Nat

/-- `WAIT_TIMEOUT - 1` (rule R7, D37; log 12). -/
opaque Config.waitTimeoutPred : Nat

/-- `UNKNOWN_TEXT` (rule R7, D43; log 14). -/
opaque Config.unknownText : List Byte

/-- `RENDER(format, temp0, temp1)` (rule R7, D43; log 13). -/
opaque Config.render : DisplayFormat → Option Temp → Option Temp → List Byte

/-- The eight bytes of a `u64` result whose number of ms does not fit 64 bits: rule R323 has deadlines and
`NOW` not wrap, and rule R93 gives no bytes for such a number (log 10). -/
opaque Config.wideTimestamp : Nat → BitVec 64

/-- The binary64 of a number of sixteenths of 2^53 or more, which no reading reaches (rule R234; log 11). -/
opaque Config.wideTemp : Int → F64

end Sys2Proof
end

