-- ==== Sys2Proof/Machine/State.lean ====
section
/-! DEFINITION. The state of TLC (10_state.md), as plain data, and its value at reset
(10_state.md rule R21, 70_reset_and_hazards.md rule R340). -/

namespace Sys2Proof.Machine

/-- `PHASE` (rule R38). -/
inductive Phase where
  | reset
  | running
  | stopped
  | fatal
deriving DecidableEq, Repr, Inhabited

/-- ScheduleEvent (30_encoding.md rule R111). -/
inductive Event where
  | logTick
  | displayTick
  | hardwareInterrupt
  | wakeRequest
  | timeout
  | stop
deriving DecidableEq, Repr, Inhabited

/-- The error statuses of rule R310; OK is the absence of one. -/
inductive Err where
  | bus
  | configuration
  | hardwareAbsent
deriving DecidableEq, Repr, Inhabited

/-- The origin of a `DIAG` record (60_exceptions.md rule R315, D70). -/
inductive Origin where
  | expander
  | display
  | sensor0
  | sensor1
  | redLed
  | buttons
deriving DecidableEq, Repr, Inhabited

/-- `SHADOW`, TLC's copy of eight expander registers (rule R23). -/
structure Shadow where
  iodira : Byte
  iodirb : Byte
  ipola : Byte
  ipolb : Byte
  gpintena : Byte
  gpintenb : Byte
  gppua : Byte
  gppub : Byte
deriving DecidableEq, Repr, Inhabited

/-- `PUB`, the published triple (rule R44). -/
structure Snapshot where
  temp0 : Option Temp
  temp1 : Option Temp
  ts : Option Nat
deriving DecidableEq, Repr, Inhabited

/-- A record of the `LOG` stream: `(timestamp, [temp0, temp1])` (rule R45). -/
structure LogRecord where
  time : Nat
  temp0 : Option Temp
  temp1 : Option Temp
deriving DecidableEq, Repr, Inhabited

/-- A record of the `DIAG` stream: `(NOW, status, origin)` (rule R45). -/
structure DiagRecord where
  time : Nat
  status : Err
  origin : Origin
deriving DecidableEq, Repr, Inhabited

/-- One op of a transaction (20_memory.md rule R60). -/
inductive BusOp where
  | writeBytes (addr : BitVec 7) (bytes : List Byte)
  | readBytes (addr : BitVec 7) (count : Nat)
deriving DecidableEq, Repr, Inhabited

/-- A record of the `TRACE` stream: the op list and the outcome, `none` for BusError (rules R45, R60). -/
structure BusRecord where
  ops : List BusOp
  outcome : Option (List (List Byte))
deriving DecidableEq, Repr, Inhabited

/-- The LOOP request a wait belongs to: SCHED.WAIT itself, SCHED.ITERATE, or a pass of SCHED.RUN. -/
inductive Waiter where
  | wait
  | iterate
  | run
deriving DecidableEq, Repr, Inhabited

/-- MODEL'S OWN (log 6): the LOOP request in progress between two steps. `waiting` is blocked in the wait of
43_scheduler.md rule R263; `running` is between two passes of the loop of rule R279. -/
inductive Activity where
  | idle
  | waiting (by_ : Waiter)
  | running
deriving DecidableEq, Repr, Inhabited

/-- The whole state of TLC: rules R22 to R45, the parameters of rule R7, and the model's own fields. -/
structure State where
  /-- `CH[0]`, inside (rule R22) -/
  ch0 : Channel
  /-- `CH[1]`, outside (rule R22) -/
  ch1 : Channel
  /-- `SHADOW` (rule R23) -/
  shadow : Shadow
  /-- `CACHE_B` (rule R24) -/
  cacheB : Byte
  /-- `CACHE_A` (rule R25) -/
  cacheA : Byte
  /-- `XM_PRESENT` (rule R26) -/
  xmPresent : Bool
  /-- `ENTRY`: bit 1 `ID`, bit 0 `SH` (rule R27) -/
  entry : BitVec 2
  /-- `DCTRL`: bit 2 `D`, bit 1 `C`, bit 0 `B` (rule R28) -/
  dctrl : BitVec 3
  /-- `LCD_PRESENT` (rule R29) -/
  lcdPresent : Bool
  /-- `NOW`, ms (rule R31) -/
  now : Nat
  /-- `LOG_DL` (rule R32) -/
  logDl : Nat
  /-- `DISP_DL` (rule R32) -/
  dispDl : Nat
  /-- `WAIT_START` (rule R33) -/
  waitStart : Nat
  /-- `WAKE` (rule R34) -/
  wake : Bool
  /-- `STOP` (rule R35) -/
  stop : Bool
  /-- `IRQ_PEND` (rule R36) -/
  irqPend : Bool
  /-- `INT_PREV`, true for asserted (rule R37) -/
  intPrev : Bool
  /-- `PHASE` (rule R38) -/
  phase : Phase
  /-- `FMT` (rule R40) -/
  fmt : DisplayFormat
  /-- `TEMP[0]` (rule R41) -/
  temp0 : Option Temp
  /-- `TEMP[1]` (rule R41) -/
  temp1 : Option Temp
  /-- `TS` (rule R42) -/
  ts : Option Nat
  /-- `ERR` (rule R43) -/
  err : Bool
  /-- `PUB` (rule R44) -/
  pub : Snapshot
  /-- `LOG`, oldest first (rule R45) -/
  log : List LogRecord
  /-- `DIAG`, oldest first (rule R45) -/
  diag : List DiagRecord
  /-- `TRACE`, oldest first (rule R45) -/
  trace : List BusRecord
  /-- the open parameters of the run (rules R7, R343) -/
  params : Params
  /-- MODEL'S OWN: the LOOP request in progress (log 6) -/
  loop : Activity
  /-- MODEL'S OWN: a LOOP request was taken and the environment has not yet acted after it (log 28) -/
  gap : Bool
  /-- MODEL'S OWN: the agent whose request is being answered (log 7) -/
  agent : Agent
  /-- MODEL'S OWN: request bytes waiting at the host port (log 7) -/
  hostPort : List Byte
  /-- MODEL'S OWN: request bytes waiting at the request server's port (log 7) -/
  reqPort : List Byte
  /-- MODEL'S OWN: the responses given, oldest first, with the agent each went to (rule R91, log 7) -/
  responses : List (Agent × List Byte)
  /-- MODEL'S OWN: the draws ENV has fixed, oldest first (rule R358, log 2) -/
  env : List Draw
  /-- MODEL'S OWN: how many free draws were used (log 2) -/
  drawn : Nat
deriving DecidableEq, Repr

/-- TLC never stops with a fault: an error ends its request with a status (60_exceptions.md rules R310,
R315), and the next request starts from the state it left. So there is no constructor. -/
inductive Fault where
deriving DecidableEq, Repr

/-- Why a request has no step (60_exceptions.md rule R314). A refusal ends the run (30_encoding.md rule R94). -/
inductive Refusal where
  /-- raised by `exec`'s arm of an instruction without a meaning: safe. No arm raises it. -/
  | notModelled (mnemonic : String)
  /-- raised by the fetch at a reserved op code (rule R94): safe, the spec gives the request no meaning. -/
  | reservedOp (op : Byte)
  /-- raised by the fetch when the port's bytes end before the op's length (rule R95): safe, as above. -/
  | shortRequest (op : Byte)
  /-- raised by the fetch when REQ sends an op other than its three (rules R95, R322): safe, as above. -/
  | notForReq (op : Byte)
deriving DecidableEq, Repr

/-- The machine right after reset: the "reset" column of rule R21 and the values of rule R7. `NOW` is any
value (rule R340); the open parameters are opaque; the model's own fields are empty (log 26). -/
def State.reset : State where
  ch0 := { addr := 0x48, variant := .b, ext := false, res := .r12 }
  ch1 := { addr := 0x49, variant := .b, ext := false, res := .r12 }
  shadow :=
    { iodira := 0xFF, iodirb := 0xFF, ipola := 0x00, ipolb := 0x00,
      gpintena := 0x00, gpintenb := 0x00, gppua := 0x00, gppub := 0x00 }
  cacheB := 0x00
  cacheA := 0x00
  xmPresent := false
  entry := 0b10
  dctrl := 0b100
  lcdPresent := false
  now := Config.resetNow
  logDl := 0
  dispDl := 0
  waitStart := 0
  wake := false
  stop := false
  irqPend := false
  intPrev := false
  phase := .reset
  fmt := .combined
  temp0 := none
  temp1 := none
  ts := none
  err := false
  pub := { temp0 := none, temp1 := none, ts := none }
  log := []
  diag := []
  trace := []
  params :=
    { logPeriod := Config.logPeriodPred + 1
      displayPeriod := Config.displayPeriodPred + 1
      waitTimeout := Config.waitTimeoutPred + 1
      encTop := .saturate
      unknownText := Config.unknownText }
  loop := .idle
  gap := false
  agent := .loop
  hostPort := []
  reqPort := []
  responses := []
  env := []
  drawn := 0

end Sys2Proof.Machine
end

