-- ==== Sys2Proof/Machine/Operands.lean ====
section
/-! DEFINITION. Operand forms, enumerations, maps and byte formats (30_encoding.md): what an operand byte
stands for, the expander's registers and pins, the display's line words and command bytes, and how results
are serialised. -/

namespace Sys2Proof.Machine

/-! ## Fixed parameters (00_scope.md rule R7) -/

/-- `EXP_ADDR`, the expander's bus address. -/
def expAddr : BitVec 7 := 0x20

/-- `SETTLE_MS`, the settle delay after clear and home. -/
def settleMs : Nat := 15

/-- `INT_ASSERTED = low`: whether the line's electrical level is the asserted one. -/
def lineAsserted (high : Bool) : Bool := !high

/-- `P_TEMP`, the temperature register's pointer (rule R112). -/
def pTemp : Byte := 0x00

/-- `P_TLOW`, the low threshold register's pointer (rule R112). -/
def pTlow : Byte := 0x02

/-- `P_THIGH`, the high threshold register's pointer (rule R112). -/
def pThigh : Byte := 0x03

/-! ## Operand bytes -/

/-- A `bool` operand: 0x00 or 0x01; any other byte is an operand error (rule R93). -/
def boolOf (b : Byte) : Option Bool :=
  if b = 0x00 then some false else if b = 0x01 then some true else none

/-- The `ext` operand: 0 or 1 (42_codec.md rules R221, R222). -/
def extOf (b : Byte) : Option Bool :=
  if b = 0 then some false else if b = 1 then some true else none

/-- The `res` operand: 9 to 12 (rules R227, R228). -/
def resOf (b : Byte) : Option Resolution :=
  if b = 9 then some .r9 else if b = 10 then some .r10
  else if b = 11 then some .r11 else if b = 12 then some .r12 else none

/-- The number of bits R of a resolution. -/
def resBits : Resolution → Nat
  | .r9 => 9
  | .r10 => 10
  | .r11 => 11
  | .r12 => 12

/-- A sensor channel: 0 inside, 1 outside (rules R112, R235). -/
inductive ChannelId where
  | inside
  | outside
deriving DecidableEq, Repr

/-- The `ch` operand (rule R112). -/
def channelOf (b : Byte) : Option ChannelId :=
  if b = 0 then some .inside else if b = 1 then some .outside else none

/-- The threshold pointer the `which` operand names (rule R112). -/
def thresholdPointer (b : Byte) : Option Byte :=
  if b = 0 then some pTlow else if b = 1 then some pThigh else none

/-! ## Expander registers (rule R106) -/

/-- Direction, bank A. -/
def regIodira : Byte := 0x00
/-- Direction, bank B. -/
def regIodirb : Byte := 0x01
/-- Input polarity, bank A. -/
def regIpola : Byte := 0x02
/-- Input polarity, bank B. -/
def regIpolb : Byte := 0x03
/-- Interrupt-on-change enable, bank A. -/
def regGpintena : Byte := 0x04
/-- Interrupt-on-change enable, bank B. -/
def regGpintenb : Byte := 0x05
/-- Interrupt compare mode, bank A. -/
def regIntcona : Byte := 0x08
/-- Pull-up enable, bank A. -/
def regGppua : Byte := 0x0C
/-- Pull-up enable, bank B. -/
def regGppub : Byte := 0x0D
/-- Interrupt capture, bank A. -/
def regIntcapa : Byte := 0x10
/-- Port, bank A. -/
def regGpioa : Byte := 0x12
/-- Port, bank B. -/
def regGpiob : Byte := 0x13
/-- Output latch, bank A. -/
def regOlata : Byte := 0x14
/-- Output latch, bank B. -/
def regOlatb : Byte := 0x15

/-- The largest register pointer of the map (rule R66). -/
def regMax : Byte := 0x15

/-- `SHADOW[reg] <- v` for the eight shadowed registers, nothing for the others (rule R130). -/
def Shadow.write (reg v : Byte) (sh : Shadow) : Shadow :=
  if reg = regIodira then { sh with iodira := v }
  else if reg = regIodirb then { sh with iodirb := v }
  else if reg = regIpola then { sh with ipola := v }
  else if reg = regIpolb then { sh with ipolb := v }
  else if reg = regGpintena then { sh with gpintena := v }
  else if reg = regGpintenb then { sh with gpintenb := v }
  else if reg = regGppua then { sh with gppua := v }
  else if reg = regGppub then { sh with gppub := v }
  else sh

/-! ## Pins (rules R104, R105) -/

/-- Bank A, green LED (1 = on). -/
def greenMask : Byte := 0x80
/-- Bank A, backlight (0 = on). -/
def backlightMask : Byte := 0x40
/-- Bank A, the six button bits. -/
def buttonMask : Byte := 0x3F
/-- Bank B, RS. -/
def rsMask : Byte := 0x80
/-- Bank B, E. -/
def eMask : Byte := 0x20
/-- Bank B, red LED (1 = on). -/
def redMask : Byte := 0x01

/-! ## Display bytes -/

/-- `FLIP`, verbatim (rule R102). -/
def flipTable : List Byte :=
  [0x00, 0x10, 0x08, 0x18, 0x04, 0x14, 0x0C, 0x1C, 0x02, 0x12, 0x0A, 0x1A, 0x06, 0x16, 0x0E, 0x1E]

/-- `FLIP[n]` (rule R102). -/
def flipOf (n : BitVec 4) : Byte := flipTable.getD n.toNat 0

/-- The line word of one nibble, enable low (rule R103). -/
def lineWord (n : BitVec 4) (rs : Bool) (cacheB : Byte) : Byte :=
  flipOf n ||| (if rs then rsMask else 0) ||| (cacheB &&& redMask)

/-- `OFFS`, verbatim (rule R108). -/
def rowOffsets : List Byte := [0x00, 0x40, 0x14, 0x54]

/-- `row_offset(row)`: a row below 0 is row 0 and a row above 2 is row 1 (41_lcd.md rule R187). -/
def rowOffset (row : Byte) : Byte :=
  let r : Int := row.toInt
  let idx : Nat := if r < 0 then 0 else if r > 2 then 1 else r.toNat
  rowOffsets.getD idx 0

/-- CLEAR (rule R100). -/
def cmdClear : Byte := 0x01
/-- HOME (rule R100). -/
def cmdHome : Byte := 0x02
/-- ENTRY_MODE (rule R100). -/
def cmdEntryMode : Byte := 0x04
/-- DISPLAY_CTRL (rule R100). -/
def cmdDisplayCtrl : Byte := 0x08
/-- SHIFT with the display-shift bit set, to the left (rules R100, R185). -/
def cmdScrollLeft : Byte := 0x18
/-- SHIFT with the display-shift bit set, to the right (rules R100, R186). -/
def cmdScrollRight : Byte := 0x1C
/-- SET_CGRAM (rule R100). -/
def cmdSetCgram : Byte := 0x40
/-- SET_DDRAM (rule R100). -/
def cmdSetDdram : Byte := 0x80
/-- SET_DDRAM with the second-row base 0x40 (41_lcd.md rule R189). -/
def cmdSecondRow : Byte := 0xC0

/-- The commands that the settle delay follows: CLEAR, and HOME with its ignored bit (41_lcd.md rule R172). -/
def needsSettle (b : Byte) : Bool := b = 0x01 || b = 0x02 || b = 0x03

/-- The line break of LCD.MESSAGE (rule R189). -/
def lineBreak : Byte := 0x0A

/-! ## Buttons and formats -/

/-- The five buttons (rule R109). -/
inductive Button where
  | select
  | right
  | down
  | up
  | left
deriving DecidableEq, Repr

/-- A button's id, its bank-A bit number (rule R109). -/
def Button.id : Button → Nat
  | .select => 0
  | .right => 1
  | .down => 2
  | .up => 3
  | .left => 4

/-- `FORMAT_OF` (43_scheduler.md rule R274). -/
def Button.format : Button → DisplayFormat
  | .select => .combined
  | .up => .inside
  | .down => .outside
  | .left => .celsius
  | .right => .fahrenheit

/-- The order in which the button action looks at the mask (43_scheduler.md rule R273). -/
def buttonOrder : List Button := [.select, .up, .down, .left, .right]

/-- The first button of the order whose bit is set in the mask (rule R273). -/
def pressedButton (mask : Byte) : Option Button := buttonOrder.find? (fun b => mask.getLsbD b.id)

/-! ## Results (rule R93) -/

/-- An `i16` result: two bytes, two's complement, most significant first. -/
def be16 (v : Int) : List Byte :=
  let w : BitVec 16 := BitVec.ofInt 16 v
  [w.extractLsb' 8 8, w.extractLsb' 0 8]

/-- The binary64 of `n / 16`, exact for every number of sixteenths below 2^53 (42_codec.md rule R234). -/
def f64OfTemp (t : Temp) : F64 :=
  let m := t.sixteenths.natAbs
  if m = 0 then 0
  else if m < 2 ^ 53 then
    let e := Nat.log2 m
    let sign : Nat := if t.sixteenths < 0 then 1 else 0
    BitVec.ofNat 64 (sign * 2 ^ 63 + (e + 1019) * 2 ^ 52 + (m * 2 ^ (52 - e) - 2 ^ 52))
  else Config.wideTemp t.sixteenths

/-- A `u64` timestamp; the bytes of a number of ms of 2^64 or more are not stated (log 10). -/
def u64OfTime (t : Nat) : BitVec 64 := if t < 2 ^ 64 then BitVec.ofNat 64 t else Config.wideTimestamp t

/-- The results of SCHED.SNAPSHOT: the presence mask and the triple, an absent value as 0
(43_scheduler.md rule R278). -/
def snapshotBytes (p : Snapshot) : List Byte :=
  let present : Byte :=
    (if p.temp0.isSome then 1 else 0) ||| (if p.temp1.isSome then 2 else 0) ||| (if p.ts.isSome then 4 else 0)
  present :: (be64 ((p.temp0.map f64OfTemp).getD 0) ++ be64 ((p.temp1.map f64OfTemp).getD 0)
    ++ be64 ((p.ts.map u64OfTime).getD 0))

end Sys2Proof.Machine
end

