-- ==== Sys2Proof/Machine/Flags.lean ====
section
/-! DEFINITION. The flags of TLC. It has no condition codes: its flags are the status byte of a response
(60_exceptions.md rule R310) and the scheduler's ready predicates (10_state.md rule R39). -/

namespace Sys2Proof

/-- The code of a display format (30_encoding.md rule R110). -/
def DisplayFormat.code : DisplayFormat → Byte
  | .combined => 0
  | .inside => 1
  | .outside => 2
  | .celsius => 3
  | .fahrenheit => 4

end Sys2Proof

namespace Sys2Proof.Machine

/-- The status byte of an error (rule R310). -/
def Err.code : Err → Byte
  | .bus => 1
  | .configuration => 2
  | .hardwareAbsent => 3

/-- The status byte of success (rule R310). -/
def okCode : Byte := 0

/-- The code of an event (30_encoding.md rule R111). -/
def Event.code : Event → Byte
  | .logTick => 0
  | .displayTick => 1
  | .hardwareInterrupt => 2
  | .wakeRequest => 3
  | .timeout => 4
  | .stop => 5

/-- `LOG_RDY`: `NOW >= LOG_DL` (rule R39). -/
def State.logRdy (s : State) : Bool := s.logDl ≤ s.now

/-- `DISP_RDY`: `NOW >= DISP_DL` (rule R39). -/
def State.dispRdy (s : State) : Bool := s.dispDl ≤ s.now

/-- `IRQ_RDY`: `IRQ_PEND = 1` (rule R39). -/
def State.irqRdy (s : State) : Bool := s.irqPend

/-- `WAKE_RDY`: `WAKE = 1` (rule R39). -/
def State.wakeRdy (s : State) : Bool := s.wake

/-- `TMO_RDY`: `NOW >= WAIT_START + WAIT_TIMEOUT` (rule R39). -/
def State.tmoRdy (s : State) : Bool := s.waitStart + s.params.waitTimeout ≤ s.now

end Sys2Proof.Machine
end

