-- ==== Sys2Proof/Machine/Ops.lean ====
section
/-! DEFINITION. The operations every request is built from: results, the environment's draws, the bus
transaction (20_memory.md rule R60), the expander's register access (40_expander.md rules R130, R131), the
output streams (10_state.md rule R45), and how a request ends, with results or with an error. -/

namespace Sys2Proof.Machine

/-! ## Results of an operation -/

/-- An operation ends with a value, or at the first `raise` it executes; either way the state writes made
before that point stand (00_scope.md rule R11). -/
inductive Res (α : Type) where
  | ok (a : α) (s : State)
  | err (e : Err) (s : State)
deriving Repr

/-- The state an operation ended in. -/
def Res.state {α : Type} : Res α → State
  | .ok _ s => s
  | .err _ s => s

/-- Go on after success; an error ends the enclosing operation too (60_exceptions.md rule R317). -/
def Res.andThen {α β : Type} (r : Res α) (k : α → State → Res β) : Res β :=
  match r with
  | .ok a s => k a s
  | .err e s => .err e s

/-- A request without results. -/
def Res.noResult (r : Res Unit) : Res (List Byte) := r.andThen fun _ s => .ok [] s

/-! ## How a request ends -/

/-- Gives a response to the agent whose request is being answered (30_encoding.md rule R91). -/
def State.respond (bytes : List Byte) (s : State) : State :=
  { s with responses := s.responses ++ [(s.agent, bytes)] }

/-- TAKING AN ERROR, and the end of every request: a success answers the status 0 and the results, an error
answers its status alone; nothing is saved, nothing is rolled back and control goes nowhere
(60_exceptions.md rules R310, R315). -/
def reply (r : Res (List Byte)) : State :=
  match r with
  | .ok results s => s.respond (okCode :: results)
  | .err e s => s.respond [e.code]

/-- The outcome of a request that ended. -/
def finish (r : Res (List Byte)) : Host.Outcome State Fault Refusal := .next (reply r)

/-- The check of a `bool` operand, made before the checks of the operation (rule R93, 60_exceptions.md rule
R316 item 2; log 8). -/
def withBool (b : Byte) (s : State) (k : Bool → Res (List Byte)) : Res (List Byte) :=
  match boolOf b with
  | some v => k v
  | none => .err .configuration s

/-! ## Output streams (rule R45) -/

/-- `emit DIAG((NOW, status, origin))`. -/
def State.emitDiag (e : Err) (o : Origin) (s : State) : State :=
  { s with diag := s.diag ++ [{ time := s.now, status := e, origin := o }] }

/-- `emit LOG((NOW, [TEMP[0], TEMP[1]]))` (43_scheduler.md rule R271). -/
def State.emitLog (s : State) : State :=
  { s with log := s.log ++ [{ time := s.now, temp0 := s.temp0, temp1 := s.temp1 }] }

/-- One `TRACE` entry (rule R60). -/
def State.emitTrace (ops : List BusOp) (outcome : Option (List (List Byte))) (s : State) : State :=
  { s with trace := s.trace ++ [{ ops := ops, outcome := outcome }] }

/-! ## The request server's three requests, as state changes (43_scheduler.md rules R276 to R278) -/

/-- `WAKE <- 1` (rule R276). -/
def State.setWake (s : State) : State := { s with wake := true }

/-- `STOP <- 1` (rule R277). -/
def State.setStop (s : State) : State := { s with stop := true }

/-- What REQ's port makes happen inside a LOOP step: its leading requests among the three are served, in
order, each with its response; anything else is left at the port, where the fetch refuses it (rules R260,
R322; log 4). -/
def serveReq : List Byte → State → State
  | [], s => { s with reqPort := [] }
  | b :: bs, s =>
    if b = 0x64 then serveReq bs { s.setWake with responses := s.responses ++ [(.req, [okCode])] }
    else if b = 0x65 then serveReq bs { s.setStop with responses := s.responses ++ [(.req, [okCode])] }
    else if b = 0x66 then
      serveReq bs { s with responses := s.responses ++ [(.req, okCode :: snapshotBytes s.pub)] }
    else { s with reqPort := b :: bs }

/-! ## The environment -/

/-- The interrupt edge detector (43_scheduler.md rule R281). -/
def State.senseLine (high : Bool) (s : State) : State :=
  let lvl := lineAsserted high
  { s with irqPend := s.irqPend || (lvl && !s.intPrev), intPrev := lvl }

/-- One act of ENV (rule R358). -/
def State.act (s : State) : EnvAct → State
  | .line high => s.senseLine high
  | .request .loop bytes => { s with hostPort := s.hostPort ++ bytes }
  | .request .req bytes => { s with reqPort := s.reqPort ++ bytes }

/-- What happens around TLC in one LOOP step that lets `ms` ms pass: `NOW` advances, ENV's acts happen in
order, and REQ's requests are served (rules R260, R282, R358). -/
def State.surround (ms : Nat) (acts : List EnvAct) (s : State) : State :=
  let s1 := acts.foldl State.act { s with now := s.now + ms }
  serveReq s1.reqPort s1

/-- The next draw: the first the state lists, or else a free one (log 2). -/
def State.nextDraw (s : State) : Draw :=
  match s.env with
  | d :: _ => d
  | [] => Config.freeDraw s.drawn

/-- The state after its next draw is taken. -/
def State.dropDraw (s : State) : State :=
  match s.env with
  | _ :: ds => { s with env := ds }
  | [] => { s with drawn := s.drawn + 1 }

/-- A LOOP step in which time passes: a blocked wait, or a block with nothing to do (rule R282). -/
def State.elapse (s : State) : State := s.dropDraw.surround s.nextDraw.dt s.nextDraw.acts

/-- A boundary between two LOOP steps at which no time passes (rule R282; log 5). -/
def State.interlude (s : State) : State := s.dropDraw.surround 0 s.nextDraw.acts

/-- `Wait(SETTLE_MS)`: TLC stays busy until `NOW` has advanced by at least the settle delay
(20_memory.md rule R64; log 15). -/
def State.settle (s : State) : State := s.dropDraw.surround (settleMs + s.nextDraw.dt) s.nextDraw.acts

/-! ## The bus -/

/-- `n` bytes of the drawn data, 0 beyond its end (log 22). -/
def fill : Nat → List Byte → List Byte
  | 0, _ => []
  | n + 1, [] => 0 :: fill n []
  | n + 1, b :: bs => b :: fill n bs

/-- One list of `count` bytes per read, in op order (rule R60). -/
def readResults : List BusOp → List Byte → List (List Byte)
  | [], _ => []
  | .writeBytes _ _ :: ops, data => readResults ops data
  | .readBytes _ n :: ops, data => fill n data :: readResults ops (data.drop n)

/-- `Txn(ops)`: time passes, the environment acts, and the transaction ends as drawn, with one `TRACE`
entry; a failure changes nothing else (20_memory.md rules R60 to R63). -/
def txn (ops : List BusOp) (s : State) : Res (List (List Byte)) :=
  let s1 := s.dropDraw.surround s.nextDraw.dt s.nextDraw.acts
  match s.nextDraw.outcome with
  | .busError => .err .bus (s1.emitTrace ops none)
  | .success data => .ok (readResults ops data) (s1.emitTrace ops (some (readResults ops data)))

/-- Byte `i` of the first read's result. -/
def readByte (results : List (List Byte)) (i : Nat) : Byte := (results.headD []).getD i 0

/-! ## The expander -/

/-- What a successful register write does to TLC's copies (40_expander.md rule R130). -/
def State.noteWrite (reg v : Byte) (s : State) : State :=
  { s with
    shadow := s.shadow.write reg v
    cacheB := if reg = regGpiob ∨ reg = regOlatb then v else s.cacheB
    cacheA := if reg = regGpioa ∨ reg = regOlata then v else s.cacheA }

/-- `RegWrite(reg, v)` (rule R130). -/
def regWrite (reg v : Byte) (s : State) : Res Unit :=
  (txn [.writeBytes expAddr [reg, v]] s).andThen fun _ s1 => .ok () (s1.noteWrite reg v)

/-- `RegRead(reg)` (rule R131). -/
def regRead (reg : Byte) (s : State) : Res Byte :=
  (txn [.writeBytes expAddr [reg], .readBytes expAddr 1] s).andThen fun r s1 => .ok (readByte r 0) s1

/-- `WriteB(v)`, the cached-output path for bank B (rule R134). -/
def writeB (v : Byte) (s : State) : Res Unit := regWrite regGpiob v s

end Sys2Proof.Machine
end

