-- ==== Sys2Proof/Machine/Codec.lean ====
section
/-! DEFINITION. U1: the fixed-point temperature codec and the sensor channels (42_codec.md). -/

namespace Sys2Proof.Machine

/-! ## Exact numbers -/

/-- The exact rational `mant / 2^exp`, the value of a finite binary64 (42_codec.md rule R234). -/
structure DyadicNumber where
  mant : Int
  exp : Nat
deriving DecidableEq, Repr

/-- What a binary64 denotes (00_scope.md rule R10, 42_codec.md rule R234). -/
inductive F64Value where
  | nan
  | infinite (negative : Bool)
  | finite (d : DyadicNumber)
deriving DecidableEq, Repr

/-- Reads a binary64 bit pattern: sign bit 63, exponent bits 62..52, fraction bits 51..0 (IEEE 754). -/
def f64Value (x : F64) : F64Value :=
  let negative := x.getLsbD 63
  let e := (x.extractLsb' 52 11).toNat
  let f := (x.extractLsb' 0 52).toNat
  let signed (m : Nat) : Int := if negative then -(m : Int) else m
  if e = 2047 then (if f = 0 then .infinite negative else .nan)
  else if e = 0 then .finite { mant := signed f, exp := 1074 }
  else if e < 1075 then .finite { mant := signed (2 ^ 52 + f), exp := 1075 - e }
  else .finite { mant := signed ((2 ^ 52 + f) * 2 ^ (e - 1075)), exp := 0 }

/-- `clamp(x, lo, hi)` for integer bounds (rule R10). -/
def clampDyadic (lo hi : Int) (d : DyadicNumber) : DyadicNumber :=
  if d.mant < lo * 2 ^ d.exp then { mant := lo, exp := 0 }
  else if hi * 2 ^ d.exp < d.mant then { mant := hi, exp := 0 }
  else d

/-- `trunc(d * 2^k)`, rounding toward zero (rule R224). -/
def truncScaled (k : Nat) (d : DyadicNumber) : Int := (d.mant * 2 ^ k).tdiv (2 ^ d.exp)

/-- Clamp to `[lo, hi]`, scale by `2^k` and truncate; an infinity gives its end of the range, NaN no value
(rules R222 to R224). -/
def quantise (lo hi : Int) (k : Nat) : F64Value → Option Int
  | .nan => none
  | .infinite true => some (truncScaled k { mant := lo, exp := 0 })
  | .infinite false => some (truncScaled k { mant := hi, exp := 0 })
  | .finite d => some (truncScaled k (clampDyadic lo hi d))

/-- A code above the largest `w`-bit code, under `ENC_TOP_POLICY` (rules R222, R228). -/
def topCode (policy : EncTop) (w : Nat) (n : Int) : Int :=
  if n > 2 ^ (w - 1) - 1 then
    (match policy with
     | .saturate => 2 ^ (w - 1) - 1
     | .wrap => n)
  else n

/-- The two's-complement number of a `w`-bit code whose sign is the given bit (rules R221, R227). -/
def signedCode (w : Nat) (negative : Bool) (u : Nat) : Int := if negative then (u : Int) - 2 ^ w else u

/-! ## Codec -/

/-- The result of a decode: the signed code and the temperature. -/
structure Reading where
  raw : Int
  value : Temp
deriving DecidableEq, Repr

/-- `decode_A(hi, lo, ext)` (rules R220, R221). -/
def decodeA (ext : Bool) (hi lo : Byte) : Reading :=
  let x := ext.toNat
  let u := (hi.toNat <<< (4 + x)) ||| (lo.toNat >>> (4 - x))
  let s := signedCode (12 + x) hi.msb u
  { raw := s, value := { sixteenths := s } }

/-- `decode_B(hi, lo, R)` (rule R227): one code unit is `2^(12 - R)` sixteenths. -/
def decodeB (r : Resolution) (hi lo : Byte) : Reading :=
  let w := (hi.toNat <<< 8) ||| lo.toNat
  let s := signedCode (resBits r) hi.msb (w >>> (16 - resBits r))
  { raw := s, value := { sixteenths := s * 2 ^ (12 - resBits r) } }

/-- The lower end of the encode range (rules R223, R228). -/
def encodeLow : Int := -55

/-- The upper end of the encode range of variant A (rule R223). -/
def encodeHighA (ext : Bool) : Int := if ext then 150 else 128

/-- The upper end of the encode range of variant B (rule R228). -/
def encodeHighB : Int := 128

/-- The byte pair of a variant-A code (rule R222). -/
def packA (ext : Bool) (n : Int) : Byte × Byte :=
  let x := ext.toNat
  let u := (n % 2 ^ (12 + x)).toNat
  (BitVec.ofNat 8 (u >>> (4 + x)), BitVec.ofNat 8 (((u <<< (4 - x)) &&& 0xFF) ||| x))

/-- The byte pair of a variant-B code (rule R228). -/
def packB (r : Resolution) (n : Int) : Byte × Byte :=
  let u := (n % 2 ^ resBits r).toNat
  let w := u <<< (16 - resBits r)
  (BitVec.ofNat 8 (w >>> 8), BitVec.ofNat 8 (w &&& 0xFF))

/-- `encode_A(x, ext)`; `none` for NaN (rule R222). -/
def encodeA (policy : EncTop) (ext : Bool) (x : F64) : Option (Byte × Byte) :=
  (quantise encodeLow (encodeHighA ext) 4 (f64Value x)).map
    fun n => packA ext (topCode policy (12 + ext.toNat) n)

/-- `encode_B(x, R)`; `none` for NaN (rule R228). -/
def encodeB (policy : EncTop) (r : Resolution) (x : F64) : Option (Byte × Byte) :=
  (quantise encodeLow encodeHighB (resBits r - 8) (f64Value x)).map
    fun n => packB r (topCode policy (resBits r) n)

/-- The result bytes of a decode: `raw` i16, `value` f64 (30_encoding.md rule R92). -/
def readingBytes (r : Reading) : List Byte := be16 r.raw ++ be64 (f64OfTemp r.value)

/-- The result bytes of an encode: `hi` u8, `lo` u8 (rule R92). -/
def pairBytes (p : Byte × Byte) : List Byte := [p.1, p.2]

/-! ## Channels -/

/-- `CH[i]` (rule R235). -/
def State.channel (s : State) : ChannelId → Channel
  | .inside => s.ch0
  | .outside => s.ch1

/-- `dec(i, hi, lo)` (rule R235). -/
def channelDecode (c : Channel) (hi lo : Byte) : Reading :=
  match c.variant with
  | .a => decodeA c.ext hi lo
  | .b => decodeB c.res hi lo

/-- `enc(i, x)` (rule R235). -/
def channelEncode (policy : EncTop) (c : Channel) (x : F64) : Option (Byte × Byte) :=
  match c.variant with
  | .a => encodeA policy c.ext x
  | .b => encodeB policy c.res x

/-- What a poll of one sensor gives (rule R231). -/
structure SensorReading where
  hi : Byte
  lo : Byte
  reading : Reading
deriving DecidableEq, Repr

/-- The transaction of a temperature read (20_memory.md rule R72). -/
def sensorReadOps (a : BitVec 7) : List BusOp := [.writeBytes a [pTemp], .readBytes a 2]

/-- Polls channel `i` (rule R231); the only error is BusError. -/
def readSensor (i : ChannelId) (s : State) : Res SensorReading :=
  (txn (sensorReadOps (s.channel i).addr) s).andThen fun r s1 =>
    let hi := readByte r 0
    let lo := readByte r 1
    .ok { hi := hi, lo := lo, reading := channelDecode (s.channel i) hi lo } s1

/-! ## The requests -/

/-- TC.DECODE_A (rule R221). -/
def execTcDecodeA (hi lo ext : Byte) (s : State) : Host.Outcome State Fault Refusal :=
  finish (match extOf ext with
    | none => .err .configuration s
    | some e => .ok (readingBytes (decodeA e hi lo)) s)

/-- TC.ENCODE_A (rule R222). -/
def execTcEncodeA (x : F64) (ext : Byte) (s : State) : Host.Outcome State Fault Refusal :=
  finish (match extOf ext with
    | none => .err .configuration s
    | some e =>
      match encodeA s.params.encTop e x with
      | none => .err .configuration s
      | some p => .ok (pairBytes p) s)

/-- TC.DECODE_B (rule R227). -/
def execTcDecodeB (hi lo res : Byte) (s : State) : Host.Outcome State Fault Refusal :=
  finish (match resOf res with
    | none => .err .configuration s
    | some r => .ok (readingBytes (decodeB r hi lo)) s)

/-- TC.ENCODE_B (rule R228). -/
def execTcEncodeB (x : F64) (res : Byte) (s : State) : Host.Outcome State Fault Refusal :=
  finish (match resOf res with
    | none => .err .configuration s
    | some r =>
      match encodeB s.params.encTop r x with
      | none => .err .configuration s
      | some p => .ok (pairBytes p) s)

/-- SC.READ (rule R231). -/
def execScRead (ch : Byte) (s : State) : Host.Outcome State Fault Refusal :=
  finish (match channelOf ch with
    | none => .err .configuration s
    | some i => (readSensor i s).andThen fun r s1 => .ok (r.hi :: r.lo :: readingBytes r.reading) s1)

/-- SC.WRITE_THRESHOLD (rule R232). -/
def execScWriteThreshold (ch which : Byte) (x : F64) (s : State) : Host.Outcome State Fault Refusal :=
  finish (match channelOf ch, thresholdPointer which with
    | some i, some ptr =>
      match channelEncode s.params.encTop (s.channel i) x with
      | none => .err .configuration s
      | some p =>
        (txn [.writeBytes (s.channel i).addr [ptr, p.1, p.2]] s).andThen fun _ s1 => .ok (pairBytes p) s1
    | _, _ => .err .configuration s)

end Sys2Proof.Machine
end

