-- ==== Sys2Proof/Machine/Expander.lean ====
section
/-! DEFINITION. U2: the expander register marshaler and the input decoder (40_expander.md). -/

namespace Sys2Proof.Machine

/-! ## The operations, as the scheduler and the display unit call them too -/

/-- `Txn`s of a sequence of register writes, ended by the first failure (rule R136). -/
def regWrites : List (Byte × Byte) → State → Res Unit
  | [], s => .ok () s
  | (reg, v) :: rest, s => (regWrite reg v s).andThen fun _ s1 => regWrites rest s1

/-- The register writes of XM.INIT, in order (rule R136). -/
def xmInitWrites : List (Byte × Byte) :=
  [(regIodira, 0x3F), (regIodirb, 0x00), (regIpola, 0x3F), (regGppua, 0x3F), (regGpintena, 0x1F),
   (regIntcona, 0x00)]

/-- XM.INIT: a BusError of any write leaves `XM_PRESENT` at 0 and becomes HardwareAbsent (rule R136). -/
def xmInit (s : State) : Res Unit :=
  match regWrites xmInitWrites { s with xmPresent := false } with
  | .ok _ s1 => .ok () { s1 with xmPresent := true }
  | .err _ s1 => .err .hardwareAbsent s1

/-- XM.SET_RED (rule R137). -/
def setRed (on : Bool) (s : State) : Res Unit :=
  if s.xmPresent then writeB ((s.cacheB &&& ~~~redMask) ||| (if on then redMask else 0)) s
  else .ok () s

/-- XM.SET_GREEN (rule R138). -/
def setGreen (on : Bool) (s : State) : Res Unit :=
  if s.xmPresent then regWrite regGpioa ((s.cacheA &&& ~~~greenMask) ||| (if on then greenMask else 0)) s
  else .ok () s

/-- XM.SET_BACKLIGHT, active-low (rule R139). -/
def setBacklight (on : Bool) (s : State) : Res Unit :=
  if s.xmPresent then
    regWrite regGpioa (if on then s.cacheA &&& ~~~backlightMask else s.cacheA ||| backlightMask) s
  else .ok () s

/-- XM.ACK_INT (rule R140). -/
def ackInt (s : State) : Res Byte :=
  if s.xmPresent then regRead regIntcapa s else .err .hardwareAbsent s

/-- XM.READ_BUTTONS (rule R141). -/
def readButtons (s : State) : Res Byte :=
  if s.xmPresent then (regRead regGpioa s).andThen fun v s1 => .ok (v &&& buttonMask) s1
  else .err .hardwareAbsent s

/-! ## The requests -/

/-- XM.WRITE (rule R132). -/
def execXmWrite (reg v : Byte) (s : State) : Host.Outcome State Fault Refusal :=
  finish (if reg > regMax then .err .configuration s else (regWrite reg v s).noResult)

/-- XM.READ (rule R133). -/
def execXmRead (reg : Byte) (s : State) : Host.Outcome State Fault Refusal :=
  finish (if reg > regMax then .err .configuration s
    else (regRead reg s).andThen fun v s1 => .ok [v] s1)

/-- XM.INIT (rule R136). -/
def execXmInit (s : State) : Host.Outcome State Fault Refusal := finish (xmInit s).noResult

/-- XM.WRITE_B (rule R135). -/
def execXmWriteB (v : Byte) (s : State) : Host.Outcome State Fault Refusal :=
  finish (if s.xmPresent then (writeB v s).noResult else .ok [] s)

/-- XM.SET_RED (rule R137). -/
def execXmSetRed (on : Byte) (s : State) : Host.Outcome State Fault Refusal :=
  finish (withBool on s fun b => (setRed b s).noResult)

/-- XM.SET_GREEN (rule R138). -/
def execXmSetGreen (on : Byte) (s : State) : Host.Outcome State Fault Refusal :=
  finish (withBool on s fun b => (setGreen b s).noResult)

/-- XM.SET_BACKLIGHT (rule R139). -/
def execXmSetBacklight (on : Byte) (s : State) : Host.Outcome State Fault Refusal :=
  finish (withBool on s fun b => (setBacklight b s).noResult)

/-- XM.ACK_INT (rule R140). -/
def execXmAckInt (s : State) : Host.Outcome State Fault Refusal :=
  finish ((ackInt s).andThen fun v s1 => .ok [v] s1)

/-- XM.READ_BUTTONS (rule R141). -/
def execXmReadButtons (s : State) : Host.Outcome State Fault Refusal :=
  finish ((readButtons s).andThen fun v s1 => .ok [v] s1)

/-- XM.TEST_BUTTON: the pure bit test (rule R142). -/
def execXmTestButton (mask id : Byte) (s : State) : Host.Outcome State Fault Refusal :=
  finish (if id > 5 then .err .configuration s else .ok [(mask >>> id.toNat) &&& 1] s)

end Sys2Proof.Machine
end

