-- ==== Sys2Proof/Machine/Lcd.lean ====
section
/-! DEFINITION. U3: the HD44780 4-bit bit-bang sequencer (41_lcd.md). -/

namespace Sys2Proof.Machine

/-! ## The nibble sequencer and the operations built on it -/

/-- One nibble: the enable-high write, then the enable-low write of the same data (rule R170). -/
def sendNibble (n : BitVec 4) (rs : Bool) (s : State) : Res Unit :=
  let w := lineWord n rs s.cacheB
  (writeB (w ||| eMask) s).andThen fun _ s1 => writeB w s1

/-- `Send(b, rs)`: the high nibble, then the low nibble (rule R170). -/
def send (b : Byte) (rs : Bool) (s : State) : Res Unit :=
  (sendNibble (b.extractLsb' 4 4) rs s).andThen fun _ s1 => sendNibble (b.extractLsb' 0 4) rs s1

/-- Sends a sequence of command bytes without settle waits, ended by the first failure (rule R175). -/
def sendAll : List Byte → State → Res Unit
  | [], s => .ok () s
  | b :: bs, s => (send b false s).andThen fun _ s1 => sendAll bs s1

/-- LCD.COMMAND: a command byte, and the settle delay after a clear or home (rules R172, R174).
`LCD_PRESENT` alone decides, also while `XM_PRESENT` is 0 (log 29). -/
def command (b : Byte) (s : State) : Res Unit :=
  if s.lcdPresent then
    (send b false s).andThen fun _ s1 => .ok () (if needsSettle b then s1.settle else s1)
  else .ok () s

/-- Sends a sequence of commands (rule R176). -/
def commands : List Byte → State → Res Unit
  | [], s => .ok () s
  | b :: bs, s => (command b s).andThen fun _ s1 => commands bs s1

/-- The command byte that carries `DCTRL` (30_encoding.md rule R100). -/
def displayCtrlByte (d : BitVec 3) : Byte := cmdDisplayCtrl ||| d.setWidth 8

/-- The command byte that carries `ENTRY` (rule R100). -/
def entryModeByte (e : BitVec 2) : Byte := cmdEntryMode ||| e.setWidth 8

/-- `ENTRY` after LCD.RESET: increment, no shift (rule R176). -/
def entryDefault : BitVec 2 := 0b10

/-- `DCTRL` after LCD.RESET: display on, cursor off, blink off (rule R176). -/
def dctrlDefault : BitVec 3 := 0b100

/-- LCD.RESET (rule R176): both fields, then both commands, then clear and home. -/
def lcdReset (s : State) : Res Unit :=
  if s.lcdPresent then
    commands [displayCtrlByte dctrlDefault, entryModeByte entryDefault, cmdClear, cmdHome]
      { s with entry := entryDefault, dctrl := dctrlDefault }
  else .ok () s

/-- The function-set bytes of LCD.INIT (rule R175). -/
def lcdInitBytes : List Byte := [0x33, 0x32, 0x28]

/-- LCD.INIT (rule R175): any BusError, also one of LCD.RESET, leaves the display absent. -/
def lcdInit (s : State) : Res Unit :=
  let s0 : State := { s with lcdPresent := false }
  if s.xmPresent then
    match (sendAll lcdInitBytes s0).andThen fun _ s1 => lcdReset { s1 with lcdPresent := true } with
    | .ok _ s2 => .ok () s2
    | .err _ s2 => .err .hardwareAbsent { s2 with lcdPresent := false }
  else .err .hardwareAbsent s0

/-- `FIELD <- value ? (FIELD | MASK) : (FIELD & ~MASK)` (rule R191). -/
def setBits {w : Nat} (mask : BitVec w) (value : Bool) (field : BitVec w) : BitVec w :=
  if value then field ||| mask else field &&& ~~~mask

/-- A setter of `DCTRL`: the field first, then the command that carries it (rule R191). -/
def setDctrl (mask : BitVec 3) (value : Bool) (s : State) : Res Unit :=
  if s.lcdPresent then
    command (displayCtrlByte (setBits mask value s.dctrl)) { s with dctrl := setBits mask value s.dctrl }
  else .ok () s

/-- A setter of `ENTRY` (rule R191). -/
def setEntry (mask : BitVec 2) (value : Bool) (s : State) : Res Unit :=
  if s.lcdPresent then
    command (entryModeByte (setBits mask value s.entry)) { s with entry := setBits mask value s.entry }
  else .ok () s

/-- One character of LCD.MESSAGE: a line break goes to the second row (rule R189). -/
def putChar (c : Byte) (s : State) : Res Unit :=
  if c = lineBreak then command cmdSecondRow s else send c true s

/-- The characters of LCD.MESSAGE, ended by the first failure (rule R189). -/
def putChars : List Byte → State → Res Unit
  | [], s => .ok () s
  | c :: cs, s => (putChar c s).andThen fun _ s1 => putChars cs s1

/-- LCD.MESSAGE (rule R189). `LCD_PRESENT` alone decides (log 29). -/
def message (text : List Byte) (s : State) : Res Unit :=
  if s.lcdPresent then putChars text s else .ok () s

/-- Data bytes, ended by the first failure (rule R190). -/
def sendData : List Byte → State → Res Unit
  | [], s => .ok () s
  | b :: bs, s => (send b true s).andThen fun _ s1 => sendData bs s1

/-- LCD.SET_POS (rule R188). -/
def setPos (col row : Byte) (s : State) : Res Unit :=
  if s.lcdPresent then
    let a : Int := col.toInt + (rowOffset row).toNat
    if col.toInt < 0 ∨ a > 0x7F then .err .configuration s
    else command (cmdSetDdram ||| BitVec.ofInt 8 a) s
  else .ok () s

/-- LCD.CREATE_CHAR (rule R190). -/
def createChar (slot : Byte) (bitmap : List Byte) (s : State) : Res Unit :=
  if s.lcdPresent then
    if slot > 7 ∨ bitmap.length > 8 then .err .configuration s
    else (command (cmdSetCgram ||| (slot <<< 3)) s).andThen fun _ s1 => sendData bitmap s1
  else .ok () s

/-! ## The requests -/

/-- LCD.SEND: no settle delay for any byte (rule R171). -/
def execLcdSend (b rs : Byte) (s : State) : Host.Outcome State Fault Refusal :=
  finish (withBool rs s fun r => if s.lcdPresent then (send b r s).noResult else .ok [] s)

/-- LCD.COMMAND (rule R172). -/
def execLcdCommand (b : Byte) (s : State) : Host.Outcome State Fault Refusal :=
  finish (command b s).noResult

/-- LCD.DATA (rule R173). -/
def execLcdData (b : Byte) (s : State) : Host.Outcome State Fault Refusal :=
  finish (if s.lcdPresent then (send b true s).noResult else .ok [] s)

/-- LCD.INIT (rule R175). -/
def execLcdInit (s : State) : Host.Outcome State Fault Refusal := finish (lcdInit s).noResult

/-- LCD.RESET (rule R176). -/
def execLcdReset (s : State) : Host.Outcome State Fault Refusal := finish (lcdReset s).noResult

/-- LCD.CLEAR (rule R177). -/
def execLcdClear (s : State) : Host.Outcome State Fault Refusal := finish (command cmdClear s).noResult

/-- LCD.HOME (rule R178). -/
def execLcdHome (s : State) : Host.Outcome State Fault Refusal := finish (command cmdHome s).noResult

/-- LCD.SET_DISPLAY (rule R179). -/
def execLcdSetDisplay (on : Byte) (s : State) : Host.Outcome State Fault Refusal :=
  finish (withBool on s fun v => (setDctrl 0b100 v s).noResult)

/-- LCD.SET_CURSOR (rule R180). -/
def execLcdSetCursor (on : Byte) (s : State) : Host.Outcome State Fault Refusal :=
  finish (withBool on s fun v => (setDctrl 0b010 v s).noResult)

/-- LCD.SET_BLINK (rule R181). -/
def execLcdSetBlink (on : Byte) (s : State) : Host.Outcome State Fault Refusal :=
  finish (withBool on s fun v => (setDctrl 0b001 v s).noResult)

/-- LCD.LEFT_TO_RIGHT (rule R182). -/
def execLcdLeftToRight (s : State) : Host.Outcome State Fault Refusal :=
  finish (setEntry 0b10 true s).noResult

/-- LCD.RIGHT_TO_LEFT (rule R183). -/
def execLcdRightToLeft (s : State) : Host.Outcome State Fault Refusal :=
  finish (setEntry 0b10 false s).noResult

/-- LCD.SET_AUTOSCROLL (rule R184). -/
def execLcdSetAutoscroll (on : Byte) (s : State) : Host.Outcome State Fault Refusal :=
  finish (withBool on s fun v => (setEntry 0b01 v s).noResult)

/-- LCD.SCROLL_LEFT (rule R185). -/
def execLcdScrollLeft (s : State) : Host.Outcome State Fault Refusal :=
  finish (command cmdScrollLeft s).noResult

/-- LCD.SCROLL_RIGHT (rule R186). -/
def execLcdScrollRight (s : State) : Host.Outcome State Fault Refusal :=
  finish (command cmdScrollRight s).noResult

/-- LCD.SET_POS (rule R188). -/
def execLcdSetPos (col row : Byte) (s : State) : Host.Outcome State Fault Refusal :=
  finish (setPos col row s).noResult

/-- LCD.MESSAGE (rule R189). -/
def execLcdMessage (text : List Byte) (s : State) : Host.Outcome State Fault Refusal :=
  finish (message text s).noResult

/-- LCD.CREATE_CHAR (rule R190). -/
def execLcdCreateChar (slot : Byte) (bitmap : List Byte) (s : State) : Host.Outcome State Fault Refusal :=
  finish (createChar slot bitmap s).noResult

end Sys2Proof.Machine
end

