-- ==== Sys2Proof/Machine/Sched.lean ====
section
/-! DEFINITION. U4: the event scheduler, the timer arbiter and the orchestrator actions (43_scheduler.md). -/

namespace Sys2Proof.Machine

/-! ## Arbitration and drain -/

/-- `arbitrate()`: the first ready source of the fixed order (rule R264). -/
def arbitrate (s : State) : Option Event :=
  if s.logRdy then some .logTick
  else if s.dispRdy then some .displayTick
  else if s.irqRdy then some .hardwareInterrupt
  else if s.wakeRdy then some .wakeRequest
  else none

/-- The deadline of a consumed timer: the first grid point after `NOW` (rule R266). -/
def advanceDeadline (dl period now : Nat) : Nat := dl + period * ((now - dl) / period + 1)

/-- `drain(ev)` (rule R265). -/
def drain (ev : Event) (s : State) : State :=
  match ev with
  | .logTick => { s with logDl := advanceDeadline s.logDl s.params.logPeriod s.now }
  | .displayTick => { s with dispDl := advanceDeadline s.dispDl s.params.displayPeriod s.now }
  | .hardwareInterrupt => { s with irqPend := false }
  | .wakeRequest => { s with wake := false }
  | .timeout => s
  | .stop => s

/-- One evaluation of the wait condition, with the drain of the source it consumes, one atomic step; `none`
keeps blocking (rule R263). -/
def evalWait (s : State) : Option (Event × State) :=
  if s.stop then some (.stop, s)
  else
    match arbitrate s with
    | some ev => some (ev, drain ev s)
    | none => if s.tmoRdy then some (.timeout, s) else none

/-! ## The actions -/

/-- One channel's part of READ_SENSORS: the value read, or none after the error path (rule R269). -/
def pollSensor (i : ChannelId) (o : Origin) (s : State) : Option Temp × State :=
  match readSensor i s with
  | .ok r s1 => (some r.reading.value, s1)
  | .err e s1 =>
    match setRed true { s1.emitDiag e o with err := true } with
    | .ok _ s2 => (none, s2)
    | .err e2 s2 => (none, s2.emitDiag e2 .redLed)

/-- Publish: `PUB <- (TEMP[0], TEMP[1], TS)` in one step (rule R270). -/
def State.publish (s : State) : State := { s with pub := { temp0 := s.temp0, temp1 := s.temp1, ts := s.ts } }

/-- READ_SENSORS (rule R269). -/
def readSensors (s : State) : State :=
  let p0 := pollSensor .inside .sensor0 s
  let p1 := pollSensor .outside .sensor1 p0.2
  let s2 := p1.2
  State.publish
    { s2 with
      temp0 := p0.1.or s.temp0
      temp1 := p1.1.or s.temp1
      ts := if p0.1.isSome || p1.1.isSome then some s2.now else s2.ts }

/-- Clear and write a text, a failure ending it with one `DIAG` record (rules R272, R273). -/
def showText (text : List Byte) (s : State) : State :=
  match (command cmdClear s).andThen fun _ s1 => message text s1 with
  | .ok _ s1 => s1
  | .err e s1 => s1.emitDiag e .display

/-- The display action (rule R272). `LCD_PRESENT` alone decides (log 29). -/
def displayAction (s : State) : State :=
  if s.lcdPresent then showText (Config.render s.fmt s.temp0 s.temp1) s else s

/-- `DISP_DL <- NOW` (rule R275). -/
def restartDisplay (s : State) : State := { s with dispDl := s.now }

/-- What the button action does with a mask (rules R273, R274). -/
def actOnMask (mask : Byte) (s : State) : State :=
  if mask = 0 then s
  else
    match pressedButton mask with
    | some b => restartDisplay { s with fmt := b.format }
    | none => if s.lcdPresent then showText s.params.unknownText s else s

/-- The button action: acknowledge, then read the mask, then act on it (rule R273). -/
def buttonAction (s : State) : State :=
  if s.xmPresent then
    match (ackInt s).andThen fun _ s1 => readButtons s1 with
    | .ok mask s1 => actOnMask mask s1
    | .err e s1 => s1.emitDiag e .buttons
  else s

/-- The action of a consumed source (rule R267). -/
def eventAction (ev : Event) (s : State) : State :=
  match ev with
  | .logTick => s.emitLog
  | .displayTick => displayAction s
  | .hardwareInterrupt => buttonAction s
  | .wakeRequest => s
  | .timeout => s
  | .stop => s

/-! ## Waits and iterations -/

/-- `SCHED.ITERATE` after its wait: the last stop check, the sensor-read step and the action (rules R267,
R268). REQ and ENV may act before the check (log 4). -/
def afterWait (ev : Event) (s : State) : Event × State :=
  let s1 := s.interlude
  if ev = .stop ∨ s1.stop = true then (.stop, { s1 with phase := .stopped })
  else (ev, eventAction ev (readSensors s1))

/-- The end of one pass: SCHED.WAIT and SCHED.ITERATE answer their event; SCHED.RUN goes on while the phase
is Running, and answers OK when it is not (rules R263, R267, R279). -/
def endPass (w : Waiter) (ev : Event) (s : State) : State :=
  match w with
  | .wait => reply (.ok [ev.code] { s with loop := .idle })
  | .iterate => reply (.ok [ev.code] { s with loop := .idle })
  | .run =>
    if s.phase = .running then { s with loop := .running } else reply (.ok [] { s with loop := .idle })

/-- What follows the wait of a request. -/
def afterWaitOf (w : Waiter) (ev : Event) (s : State) : State :=
  match w with
  | .wait => endPass .wait ev s
  | .iterate => endPass .iterate (afterWait ev s).1 (afterWait ev s).2
  | .run => endPass .run (afterWait ev s).1 (afterWait ev s).2

/-- One evaluation of the wait: on, or blocked until the next step (rule R263; log 6). -/
def tryWait (w : Waiter) (s : State) : State :=
  match evalWait s with
  | some (ev, s1) => afterWaitOf w ev s1
  | none => { s with loop := .waiting w }

/-- `WAIT_START <- NOW`, and the first evaluation (rule R263). -/
def startWait (w : Waiter) (s : State) : State := tryWait w { s with waitStart := s.now }

/-- One pass of SCHED.ITERATE or SCHED.RUN in phase Running: the first stop check, then the wait. REQ and ENV
may act between the two (rules R267, R268; log 4). -/
def startPass (w : Waiter) (s : State) : State :=
  if s.stop then endPass w .stop { s with phase := .stopped } else startWait w s.interlude

/-- The head of SCHED.RUN's loop (rule R279). -/
def runHead (s : State) : State :=
  if s.phase = .running then startPass .run s else reply (.ok [] { s with loop := .idle })

/-! ## Start-up -/

/-- Expander, then display, each allowed to be absent (rule R261). An expander that fails here leaves
`LCD_PRESENT` as it was (log 29). -/
def startUnits (s : State) : State :=
  let s1 :=
    match xmInit s with
    | .ok _ s1 => s1
    | .err e s1 => s1.emitDiag e .expander
  if s1.xmPresent then
    match lcdInit s1 with
    | .ok _ s2 => s2
    | .err e s2 => s2.emitDiag e .display
  else s1

/-- The start-up probe of one sensor; a failure is fatal (rule R261). -/
def probeSensor (i : ChannelId) (o : Origin) (s : State) : Res Temp :=
  match readSensor i s with
  | .ok r s1 => .ok r.reading.value s1
  | .err e s1 => .err .hardwareAbsent { s1.emitDiag e o with phase := .fatal }

/-- The end of start-up: publish and arm the timers (rule R261). -/
def armTimers (s : State) : State :=
  let s1 := State.publish { s with ts := some s.now }
  { s1 with dispDl := s1.now, logDl := s1.now + s1.params.logPeriod, phase := .running }

/-- SCHED.START (rule R261). -/
def schedStart (s : State) : Res Unit :=
  if s.phase = .reset then
    (probeSensor .inside .sensor0 (startUnits s)).andThen fun v0 s1 =>
      (probeSensor .outside .sensor1 { s1 with temp0 := some v0 }).andThen fun v1 s2 =>
        .ok () (armTimers { s2 with temp1 := some v1 })
  else .err .configuration s

/-! ## The requests -/

/-- SCHED.START (rule R261). -/
def execSchedStart (s : State) : Host.Outcome State Fault Refusal := finish (schedStart s).noResult

/-- SCHED.WAIT (rule R263). -/
def execSchedWait (s : State) : Host.Outcome State Fault Refusal :=
  .next (if s.phase = .running then startWait .wait s else reply (.err .configuration s))

/-- SCHED.ITERATE (rule R267). -/
def execSchedIterate (s : State) : Host.Outcome State Fault Refusal :=
  .next (if s.phase = .running then startPass .iterate s else reply (.err .configuration s))

/-- SCHED.RESTART_DISPLAY (rule R275). -/
def execSchedRestartDisplay (s : State) : Host.Outcome State Fault Refusal :=
  finish (if s.phase = .running then .ok [] (restartDisplay s) else .err .configuration s)

/-- SCHED.WAKE (rule R276). -/
def execSchedWake (s : State) : Host.Outcome State Fault Refusal := finish (.ok [] s.setWake)

/-- SCHED.STOP (rule R277). -/
def execSchedStop (s : State) : Host.Outcome State Fault Refusal := finish (.ok [] s.setStop)

/-- SCHED.SNAPSHOT (rule R278). -/
def execSchedSnapshot (s : State) : Host.Outcome State Fault Refusal := finish (.ok (snapshotBytes s.pub) s)

/-- SCHED.RUN: start-up from phase Reset, then the loop (rule R279). The first pass after a start-up is a step of
its own, as every later pass is (log 6). -/
def execSchedRun (s : State) : Host.Outcome State Fault Refusal :=
  .next (match s.phase with
    | .reset =>
      (match schedStart s with
       | .ok _ s1 => { s1 with loop := .running }
       | .err e s1 => reply (.err e s1))
    | .running => runHead s
    | .stopped => reply (.err .configuration s)
    | .fatal => reply (.err .configuration s))

end Sys2Proof.Machine
end

