-- ==== Sys2Proof/Machine/Dispatch.lean ====
section
/-! DEFINITION. The meaning of every request: one arm per constructor, one direct call each. -/

namespace Sys2Proof.Machine

def exec (i : Instr) (s : State) : Host.Outcome State Fault Refusal :=
  match i with
  | .tcDecodeA hi lo ext => Sys2Proof.Machine.execTcDecodeA hi lo ext s
  | .tcEncodeA x ext => Sys2Proof.Machine.execTcEncodeA x ext s
  | .tcDecodeB hi lo res => Sys2Proof.Machine.execTcDecodeB hi lo res s
  | .tcEncodeB x res => Sys2Proof.Machine.execTcEncodeB x res s
  | .scRead ch => Sys2Proof.Machine.execScRead ch s
  | .scWriteThreshold ch which x => Sys2Proof.Machine.execScWriteThreshold ch which x s
  | .xmWrite reg v => Sys2Proof.Machine.execXmWrite reg v s
  | .xmRead reg => Sys2Proof.Machine.execXmRead reg s
  | .xmInit => Sys2Proof.Machine.execXmInit s
  | .xmWriteB v => Sys2Proof.Machine.execXmWriteB v s
  | .xmSetRed on => Sys2Proof.Machine.execXmSetRed on s
  | .xmSetGreen on => Sys2Proof.Machine.execXmSetGreen on s
  | .xmSetBacklight on => Sys2Proof.Machine.execXmSetBacklight on s
  | .xmAckInt => Sys2Proof.Machine.execXmAckInt s
  | .xmReadButtons => Sys2Proof.Machine.execXmReadButtons s
  | .xmTestButton mask id => Sys2Proof.Machine.execXmTestButton mask id s
  | .lcdSend b rs => Sys2Proof.Machine.execLcdSend b rs s
  | .lcdCommand b => Sys2Proof.Machine.execLcdCommand b s
  | .lcdData b => Sys2Proof.Machine.execLcdData b s
  | .lcdInit => Sys2Proof.Machine.execLcdInit s
  | .lcdReset => Sys2Proof.Machine.execLcdReset s
  | .lcdClear => Sys2Proof.Machine.execLcdClear s
  | .lcdHome => Sys2Proof.Machine.execLcdHome s
  | .lcdSetDisplay on => Sys2Proof.Machine.execLcdSetDisplay on s
  | .lcdSetCursor on => Sys2Proof.Machine.execLcdSetCursor on s
  | .lcdSetBlink on => Sys2Proof.Machine.execLcdSetBlink on s
  | .lcdLeftToRight => Sys2Proof.Machine.execLcdLeftToRight s
  | .lcdRightToLeft => Sys2Proof.Machine.execLcdRightToLeft s
  | .lcdSetAutoscroll on => Sys2Proof.Machine.execLcdSetAutoscroll on s
  | .lcdScrollLeft => Sys2Proof.Machine.execLcdScrollLeft s
  | .lcdScrollRight => Sys2Proof.Machine.execLcdScrollRight s
  | .lcdSetPos col row => Sys2Proof.Machine.execLcdSetPos col row s
  | .lcdMessage text => Sys2Proof.Machine.execLcdMessage text s
  | .lcdCreateChar slot bitmap => Sys2Proof.Machine.execLcdCreateChar slot bitmap s
  | .schedStart => Sys2Proof.Machine.execSchedStart s
  | .schedWait => Sys2Proof.Machine.execSchedWait s
  | .schedIterate => Sys2Proof.Machine.execSchedIterate s
  | .schedRestartDisplay => Sys2Proof.Machine.execSchedRestartDisplay s
  | .schedWake => Sys2Proof.Machine.execSchedWake s
  | .schedStop => Sys2Proof.Machine.execSchedStop s
  | .schedSnapshot => Sys2Proof.Machine.execSchedSnapshot s
  | .schedRun => Sys2Proof.Machine.execSchedRun s

end Sys2Proof.Machine
end

