-- ==== Sys2Proof/Machine/Fetch.lean ====
section
/-! DEFINITION. What TLC does next: serve REQ, go on with the LOOP request in progress, or take the next
request of the host port (43_scheduler.md rule R260, 60_exceptions.md rules R314, R316, R322). -/

namespace Sys2Proof.Machine

/-- What a step will do. -/
inductive Fetched where
  /-- run this request from this state -/
  | run (i : Instr) (s : State)
  /-- no request is taken: the state after the step -/
  | quiet (s : State)
  /-- the request has no step -/
  | refuse (r : Refusal)
deriving Repr

/-- The refusal of bytes that are no request (rules R94, R95). -/
def refusalOf : DecodeError → Refusal
  | .empty => .shortRequest 0
  | .reserved op => .reservedOp op
  | .short op => .shortRequest op

/-- Takes the first request of REQ's port: one of its three, or a refusal (rules R95, R322). -/
def fetchReq (s : State) : Fetched :=
  match decode s.reqPort with
  | .error e => .refuse (refusalOf e)
  | .ok (i, rest) =>
    if i.reqMayIssue then .run i { s with reqPort := rest, agent := .req }
    else .refuse (.notForReq (s.reqPort.headD 0))

/-- Takes the first request of the host port; LOOP may issue every request (rule R322; log 23). The environment
and REQ get their turn before the next one is taken (rule R260; log 28). -/
def fetchHost (s : State) : Fetched :=
  match decode s.hostPort with
  | .error e => .refuse (refusalOf e)
  | .ok (i, rest) => .run i { s with hostPort := rest, agent := .loop, gap := true }

/-- The next evaluation of a blocked wait, after time passed and the environment acted (rule R263). -/
def resumeWait (w : Waiter) (s : State) : State := tryWait w { s with agent := .loop }.elapse

/-- The next pass of SCHED.RUN (rule R279). The environment and REQ may act before its first stop check (rule
R260; log 4). -/
def resumeRun (s : State) : State := runHead { s with agent := .loop }.interlude

/-- A step with no LOOP request: time passes and the environment acts, between two requests and while no request
waits (70_reset_and_hazards.md rules R341, R358; log 27, log 28). -/
def idleStep (s : State) : State := { s with gap := false }.elapse

/-- What LOOP does when REQ asks nothing: go on with its request, or leave the turn to the environment, or take
the next request. -/
def fetchLoop (s : State) : Fetched :=
  match s.loop with
  | .waiting w => .quiet (resumeWait w s)
  | .running => .quiet (resumeRun s)
  | .idle =>
    if s.gap = true ∨ s.hostPort = [] then .quiet (idleStep s) else fetchHost s

/-- REQ never waits for LOOP (rule R260): its port comes first. -/
def fetch (s : State) : Fetched :=
  match s.reqPort with
  | _ :: _ => fetchReq s
  | [] => fetchLoop s

end Sys2Proof.Machine
end

