-- ==== Sys2Proof/Machine/Step.lean ====
section
/-! DEFINITION. One step of TLC. -/

namespace Sys2Proof.Machine

/-- One step: run the request that is fetched, take a step without a request, or refuse. -/
def step (s : State) : Host.Outcome State Fault Refusal :=
  match fetch s with
  | .run i s1 => exec i s1
  | .quiet s1 => .next s1
  | .refuse r => .refused r

/-- `s` with a request waiting at the host port, nothing before it at REQ's port and no LOOP request in
progress or just ended, so that the next step fetches and runs exactly it. The request is the one whose low `nbits` bits
are `w`, without the zero bytes after its length. -/
def State.withFetchWord (s : State) (nbits w : Nat) : State :=
  { s with hostPort := tableRequest nbits w, reqPort := [], loop := .idle, gap := false }

end Sys2Proof.Machine
end

