-- ==== Sys2Proof/WellFormed.lean ====
section
/-! DEFINITION. Which terms of `Instr` are requests: a byte string operand is given with its length in one
byte (30_encoding.md rule R93), so it holds at most 255 bytes. Every other operand is exact by its type. -/

namespace Sys2Proof

/-- A byte string operand fits its length byte (rule R93, 41_lcd.md rule R189: "length n (0 to 255)"). -/
def fitsLengthByte (bs : List Byte) : Bool := bs.length < 256

/-- The well-formed requests. -/
def Instr.wf : Instr → Bool
  | .lcdMessage text => fitsLengthByte text
  | .lcdCreateChar _ bitmap => fitsLengthByte bitmap
  | .tcDecodeA _ _ _ | .tcEncodeA _ _ | .tcDecodeB _ _ _ | .tcEncodeB _ _ | .scRead _
  | .scWriteThreshold _ _ _ | .xmWrite _ _ | .xmRead _ | .xmInit | .xmWriteB _ | .xmSetRed _
  | .xmSetGreen _ | .xmSetBacklight _ | .xmAckInt | .xmReadButtons | .xmTestButton _ _
  | .lcdSend _ _ | .lcdCommand _ | .lcdData _ | .lcdInit | .lcdReset | .lcdClear | .lcdHome
  | .lcdSetDisplay _ | .lcdSetCursor _ | .lcdSetBlink _ | .lcdLeftToRight | .lcdRightToLeft
  | .lcdSetAutoscroll _ | .lcdScrollLeft | .lcdScrollRight | .lcdSetPos _ _ | .schedStart
  | .schedWait | .schedIterate | .schedRestartDisplay | .schedWake | .schedStop | .schedSnapshot
  | .schedRun => true

end Sys2Proof
end

