-- ==== Sys2Proof/Safety.lean ====
section
/-! DEFINITION. The terms claims are made in: what the environment does over several steps, what an exchange
with a device leaves, the numbers of the codec as rationals, the causes of the error statuses, the parts of an
iteration as the rules describe them, the invariant of the machine and the law of the caches. -/

namespace Sys2Proof.Machine

/-- What a request or a step ends in. -/
abbrev Ends := Host.Outcome State Fault Refusal

/-- A `bool` operand byte (30_encoding.md rule R93). -/
def boolByte (b : Bool) : Byte := if b then 0x01 else 0x00

/-! ## The environment over several LOOP steps -/

/-- The next `n` draws. -/
def State.nextDraws : Nat → State → List Draw
  | 0, _ => []
  | n + 1, s => s.nextDraw :: State.nextDraws n s.dropDraw

/-- None of the next `n` draws is a BusError. -/
def State.busOk (n : Nat) (s : State) : Bool := (s.nextDraws n).all fun d => d.outcome ≠ .busError

/-- Draw number `k` from here, counted from 0. -/
def State.drawAt : Nat → State → Draw
  | 0, s => s.nextDraw
  | k + 1, s => State.drawAt k s.dropDraw

/-- The environment's part of `n` LOOP steps in which time passes, and nothing else. -/
def State.elapsed : Nat → State → State
  | 0, s => s
  | n + 1, s => State.elapsed n s.elapse

/-- `t` with every field that ENV, REQ and the responses own taken from `s`; two states that agree under it
agree on all that LOOP alone writes. -/
def State.envFrom (s t : State) : State :=
  { t with
    now := s.now, wake := s.wake, stop := s.stop, irqPend := s.irqPend, intPrev := s.intPrev,
    hostPort := s.hostPort, reqPort := s.reqPort, responses := s.responses, env := s.env, drawn := s.drawn }

/-- The bytes a draw gives a transaction that succeeds. -/
def drawData (d : Draw) : List Byte :=
  match d.outcome with
  | .success bytes => bytes
  | .busError => []

/-! ## Exchanges with the devices -/

/-- The state after one transaction that succeeded with these results (20_memory.md rules R60, R63). -/
def State.exchanged (ops : List BusOp) (results : List (List Byte)) (s : State) : State :=
  { s.elapse with trace := s.trace ++ [{ ops := ops, outcome := some results }] }

/-- The state after one transaction that failed (rule R61). -/
def State.exchangeFailed (ops : List BusOp) (s : State) : State :=
  { s.elapse with trace := s.trace ++ [{ ops := ops, outcome := none }] }

/-- The record of a successful expander register write (rule R72). -/
def wroteRecord (reg v : Byte) : BusRecord := { ops := [.writeBytes 0x20 [reg, v]], outcome := some [] }

/-- The record of an expander register write that failed. -/
def failedRecord (reg v : Byte) : BusRecord := { ops := [.writeBytes 0x20 [reg, v]], outcome := none }

/-- The ops of an expander register read (rule R72). -/
def readOps (reg : Byte) : List BusOp := [.writeBytes 0x20 [reg], .readBytes 0x20 1]

/-- The ops of a sensor temperature read (rule R72). -/
def pollOps (c : Channel) : List BusOp := [.writeBytes c.addr [0x00], .readBytes c.addr 2]

/-- The response a request just got: the newest one, if the request added any. -/
def newResponse (s t : State) : Option (Agent × List Byte) :=
  if s.responses.length < t.responses.length then t.responses.getLast? else none

/-- The state after one successful write of bank B (40_expander.md rule R134). -/
def State.writtenB (v : Byte) (s : State) : State :=
  { s.exchanged [.writeBytes 0x20 [0x13, v]] [] with cacheB := v }

/-- The state after one successful write of bank A (rules R138, R139). -/
def State.writtenA (v : Byte) (s : State) : State :=
  { s.exchanged [.writeBytes 0x20 [0x12, v]] [] with cacheA := v }

/-! ## What the display unit sends (41_lcd.md) -/

/-- The four bank-B bytes of `Send(b, rs)` (rule R170): each nibble's line word with E set, then clear, the
high nibble first, with the red LED bit of `cacheB`. -/
def sendBytes (b : Byte) (rs : Bool) (cacheB : Byte) : List Byte :=
  let word (n : Nat) : Byte :=
    [0x00, 0x10, 0x08, 0x18, 0x04, 0x14, 0x0C, 0x1C, 0x02, 0x12, 0x0A, 0x1A, 0x06, 0x16, 0x0E, 0x1E].getD n 0
      ||| (if rs then 0x80 else 0x00) ||| (cacheB &&& 0x01)
  [word (b.toNat / 16) ||| 0x20, word (b.toNat / 16), word (b.toNat % 16) ||| 0x20, word (b.toNat % 16)]

/-- The state after these bytes went to GPIOB, each in one successful transaction. -/
def State.wroteB (bytes : List Byte) (s : State) : State :=
  { s.elapsed bytes.length with
    trace := s.trace ++ bytes.map (wroteRecord 0x13), cacheB := bytes.getLastD s.cacheB }

/-- The state after these bytes went to GPIOB and the write of `bad` after them failed. -/
def State.failedB (bytes : List Byte) (bad : Byte) (s : State) : State :=
  { s.elapsed (bytes.length + 1) with
    trace := s.trace ++ bytes.map (wroteRecord 0x13) ++ [failedRecord 0x13 bad]
    cacheB := bytes.getLastD s.cacheB }

/-- One byte sent to the display: the byte, its register select, and whether the settle delay follows it. -/
structure Sent where
  byte : Byte
  rs : Bool
  settle : Bool
deriving DecidableEq, Repr

/-- The command `b` (rule R172): the settle delay follows 0x01, 0x02 and 0x03. -/
def commandOf (b : Byte) : Sent := { byte := b, rs := false, settle := b = 0x01 ∨ b = 0x02 ∨ b = 0x03 }

/-- A byte sent with no settle delay (rules R171, R173). -/
def plainOf (b : Byte) (rs : Bool) : Sent := { byte := b, rs := rs, settle := false }

/-- What LCD.MESSAGE sends (rule R189): a line break is the command 0xC0. -/
def textOf (text : List Byte) : List Sent :=
  text.map fun c => if c = 0x0A then commandOf 0xC0 else plainOf c true

/-- The state after one byte was sent with all four writes acknowledged. -/
def State.sent (x : Sent) (s : State) : State :=
  let t := s.wroteB (sendBytes x.byte x.rs s.cacheB)
  if x.settle then t.settle else t

/-- Sending these bytes in order from `s` leads to a state with `done` when every write is acknowledged. The
first write that fails ends it: the writes before it are made, none after it, and the state it leaves has
`bad`. -/
def sendsThen (bad : State → Prop) : List Sent → (State → Prop) → State → Prop
  | [], done, s => done s
  | x :: xs, done, s =>
    (s.busOk 4 = true → sendsThen bad xs done (s.sent x)) ∧
      ∀ k < 4, s.busOk k = true → (s.drawAt k).outcome = .busError →
        bad (s.failedB ((sendBytes x.byte x.rs s.cacheB).take k) ((sendBytes x.byte x.rs s.cacheB).getD k 0))

/-- A request that ends in `o` sends these bytes from `s`: it answers status 0 after the last, and status 1
at the first write that fails. -/
def sends (o : Ends) (xs : List Sent) (s : State) : Prop :=
  sendsThen (fun t => o = .next (t.respond [1])) xs (fun t => o = .next (t.respond [0])) s

/-! ## Requests -/

/-- The reserved op codes (30_encoding.md rule R94). -/
def reservedOpCode (op : Byte) : Prop :=
  (0x06 ≤ op.toNat ∧ op.toNat ≤ 0x1F) ∨ (0x2A ≤ op.toNat ∧ op.toNat ≤ 0x3F) ∨
    (0x52 ≤ op.toNat ∧ op.toNat ≤ 0x5F) ∨ (0x68 ≤ op.toNat ∧ op.toNat ≤ 0x7F) ∨
    (0x80 ≤ op.toNat ∧ op.toNat ≤ 0xFF)

/-- These bytes are what the next step looks at: they wait at REQ's port, or at the host port while REQ asks
nothing, no LOOP request is in progress and the environment has had its turn after the last one. -/
def State.nextBytes (s : State) (bytes : List Byte) : Prop :=
  s.reqPort = bytes ∨ (s.reqPort = [] ∧ s.loop = .idle ∧ s.gap = false ∧ s.hostPort = bytes)

/-- A binary64 that is not a number: every exponent bit set and a fraction that is not 0. -/
def isNaN (x : F64) : Prop := (x.extractLsb' 52 11).toNat = 2047 ∧ (x.extractLsb' 0 52).toNat ≠ 0

/-- The causes of a ConfigurationError (60_exceptions.md rule R312), a `bool` operand's byte before the
display's presence (log 8). -/
def configurationCause (i : Instr) (s : State) : Prop :=
  match i with
  | .tcDecodeA _ _ ext => 1 < ext.toNat
  | .tcEncodeA x ext => 1 < ext.toNat ∨ isNaN x
  | .tcDecodeB _ _ res => res.toNat < 9 ∨ 12 < res.toNat
  | .tcEncodeB x res => res.toNat < 9 ∨ 12 < res.toNat ∨ isNaN x
  | .scRead ch => 1 < ch.toNat
  | .scWriteThreshold ch which x => 1 < ch.toNat ∨ 1 < which.toNat ∨ isNaN x
  | .xmWrite reg _ | .xmRead reg => 0x15 < reg.toNat
  | .xmSetRed on | .xmSetGreen on | .xmSetBacklight on => 1 < on.toNat
  | .xmTestButton _ id => 5 < id.toNat
  | .lcdSend _ rs => 1 < rs.toNat
  | .lcdSetDisplay on | .lcdSetCursor on | .lcdSetBlink on | .lcdSetAutoscroll on => 1 < on.toNat
  | .lcdSetPos col row =>
    s.lcdPresent = true ∧ (col.toInt < 0 ∨ 0x7F < col.toInt + (rowOffset row).toNat)
  | .lcdCreateChar slot bitmap => s.lcdPresent = true ∧ (7 < slot.toNat ∨ 8 < bitmap.length)
  | .schedStart => s.phase ≠ .reset
  | .schedWait | .schedIterate | .schedRestartDisplay => s.phase ≠ .running
  | .schedRun => s.phase = .stopped ∨ s.phase = .fatal
  | .xmInit | .xmWriteB _ | .xmAckInt | .xmReadButtons | .lcdCommand _ | .lcdData _ | .lcdInit | .lcdReset
  | .lcdClear | .lcdHome | .lcdLeftToRight | .lcdRightToLeft | .lcdScrollLeft | .lcdScrollRight
  | .lcdMessage _ | .schedWake | .schedStop | .schedSnapshot => False

/-- The requests that can answer BusError (rule R311). -/
def canAnswerBusError (i : Instr) : Prop :=
  match i with
  | .scRead _ | .scWriteThreshold _ _ _ => True
  | .xmWrite _ _ | .xmRead _ | .xmWriteB _ | .xmSetRed _ | .xmSetGreen _ | .xmSetBacklight _
  | .xmAckInt | .xmReadButtons => True
  | .lcdSend _ _ | .lcdCommand _ | .lcdData _ | .lcdReset | .lcdClear | .lcdHome | .lcdSetDisplay _
  | .lcdSetCursor _ | .lcdSetBlink _ | .lcdLeftToRight | .lcdRightToLeft | .lcdSetAutoscroll _
  | .lcdScrollLeft | .lcdScrollRight | .lcdSetPos _ _ | .lcdMessage _ | .lcdCreateChar _ _ => True
  | .tcDecodeA _ _ _ | .tcEncodeA _ _ | .tcDecodeB _ _ _ | .tcEncodeB _ _ | .xmInit
  | .xmTestButton _ _ | .lcdInit | .schedStart | .schedWait | .schedIterate | .schedRestartDisplay
  | .schedWake | .schedStop | .schedSnapshot | .schedRun => False

/-- The causes of a HardwareAbsent (rule R313), seen in the states before and after the request. -/
def hardwareCause (i : Instr) (s t : State) : Prop :=
  (i = .xmInit ∧ t.xmPresent = false) ∨ (i = .lcdInit ∧ t.lcdPresent = false) ∨
    ((i = .xmAckInt ∨ i = .xmReadButtons) ∧ s.xmPresent = false) ∨
    ((i = .schedStart ∨ i = .schedRun) ∧ t.phase = .fatal)

/-- The requests of U3: bits 7 to 5 of the op code are 2 (30_encoding.md rule R92). -/
def isLcd (i : Instr) : Prop := (encode i).headD 0 >>> 5 = 0x02

/-- The requests that set up the expander: XM.INIT, also inside SCHED.START and SCHED.RUN. -/
def setsUpExpander (i : Instr) : Prop := i = .xmInit ∨ i = .schedStart ∨ i = .schedRun

/-- The requests that set up the display: LCD.INIT, also inside SCHED.START and SCHED.RUN. -/
def setsUpDisplay (i : Instr) : Prop := i = .lcdInit ∨ i = .schedStart ∨ i = .schedRun

/-- The requests that wait, and so drain (43_scheduler.md rules R263, R265, R267, R279). -/
def waits (i : Instr) : Prop := i = .schedWait ∨ i = .schedIterate ∨ i = .schedRun

/-- The requests that read the sensors for the scheduler. -/
def readsSensors (i : Instr) : Prop := i = .schedStart ∨ i = .schedIterate ∨ i = .schedRun

/-! ## The codec in rationals (42_codec.md) -/

/-- The rational a dyadic number is. -/
def dyadicRat (d : DyadicNumber) : Rat := (d.mant : Rat) / 2 ^ d.exp

/-- `v` is a binary64 of exactly `q`, and not -0.0 (rules R221, R234). -/
def isF64Of (v : F64) (q : Rat) : Prop :=
  (∃ d, f64Value v = .finite d ∧ dyadicRat d = q) ∧ v ≠ 0x8000000000000000

/-- `trunc(q)`, rounding toward zero (00_scope.md rule R10). -/
def truncRat (q : Rat) : Int := if 0 ≤ q then ⌊q⌋ else ⌈q⌉

/-- `clamp(x, lo, hi)` of what a binary64 denotes; `none` for NaN (rules R10, R222). -/
def clampedValue (lo hi : Rat) : F64Value → Option Rat
  | .nan => none
  | .infinite true => some lo
  | .infinite false => some hi
  | .finite d => some (min (max (dyadicRat d) lo) hi)

/-- The order of what two binary64 values denote, NaN apart. -/
def numericLe : F64Value → F64Value → Prop
  | .infinite true, .infinite _ | .infinite true, .finite _ => True
  | .finite _, .infinite false | .infinite false, .infinite false => True
  | .finite a, .finite b => dyadicRat a ≤ dyadicRat b
  | _, _ => False

/-- The `w`-bit code of a scaled temperature: truncated, and saturated at the top under that policy, as an
unsigned number (rules R222, R224, R228). -/
def unsignedCode (policy : EncTop) (w : Nat) (q : Rat) : Nat :=
  let n := truncRat q
  let m := if policy = .saturate ∧ 2 ^ (w - 1) - 1 < n then 2 ^ (w - 1) - 1 else n
  (m % 2 ^ w).toNat

/-- The upper end of the encode range of variant A (rule R223). -/
def highA (ext : Bool) : Rat := if ext then 150 else 128

/-- A canonical pair of variant A (rule R226). -/
def canonicalA (ext : Bool) (hi lo : Byte) : Prop :=
  (if ext then lo.toNat % 8 = 1 else lo.toNat % 16 = 0) ∧
    -55 ≤ (decodeA ext hi lo).value.celsius ∧ (decodeA ext hi lo).value.celsius ≤ highA ext

/-- A canonical pair of variant B (rule R229). -/
def canonicalB (r : Resolution) (hi lo : Byte) : Prop :=
  lo.toNat % 2 ^ (16 - resBits r) = 0 ∧ -55 ≤ (decodeB r hi lo).value.celsius

/-- The two bytes a draw gives a sensor read, a byte that the draw does not list read as 0 (log 22). -/
def sensedPair (d : Draw) : Byte × Byte := ((drawData d).getD 0 0, (drawData d).getD 1 0)

/-- What a channel's decode makes of them (rules R231, R235). -/
def sensedReading (c : Channel) (d : Draw) : Reading :=
  match c.variant with
  | .a => decodeA c.ext (sensedPair d).1 (sensedPair d).2
  | .b => decodeB c.res (sensedPair d).1 (sensedPair d).2

/-- The state after a sensor's read was answered with that draw. -/
def State.sensed (c : Channel) (d : Draw) (s : State) : State :=
  s.exchanged (pollOps c) [[(sensedPair d).1, (sensedPair d).2]]

/-! ## The scheduler (43_scheduler.md) -/

/-- The first grid point after `now` (rule R266). -/
def gridAfter (dl period now : Nat) : Nat := dl + period * ((now - dl) / period + 1)

/-- One evaluation of the wait condition: the event's code and the state after its drain, or nothing
(rules R263 to R265). -/
def waitOutcome (s : State) : Option (Byte × State) :=
  if s.stop = true then some (5, s)
  else if s.logDl ≤ s.now then some (0, { s with logDl := gridAfter s.logDl s.params.logPeriod s.now })
  else if s.dispDl ≤ s.now then some (1, { s with dispDl := gridAfter s.dispDl s.params.displayPeriod s.now })
  else if s.irqPend = true then some (2, { s with irqPend := false })
  else if s.wake = true then some (3, { s with wake := false })
  else if s.waitStart + s.params.waitTimeout ≤ s.now then some (4, s)
  else none

/-- The state in which the wait of an iteration that starts in `s` is evaluated first (rules R263, R267;
log 4, log 5). -/
def State.waitStarted (s : State) : State := { s.interlude with waitStart := s.now }

/-- The state in which a blocked wait is evaluated again (rule R263). -/
def State.waitResumed (s : State) : State := ({ s with agent := .loop } : State).elapse

/-- A request of LOOP blocked in its wait, with nothing asked by REQ. -/
def State.blockedIn (s : State) (w : Waiter) : Prop := s.reqPort = [] ∧ s.loop = .waiting w

/-- The response of SCHED.WAIT and SCHED.ITERATE. -/
def State.answered (code : Byte) (s : State) : State := ({ s with loop := .idle } : State).respond [0, code]

/-- The iteration in or before `s` consumes the source with this code and comes to the sensor-read step in
`c`, no stop request seen at any of the three checks (rules R267, R268); then it ends in `t`, whether the wait
ended at its first evaluation or at a later one. -/
def iterates (s : State) (code : Byte) (c t : State) : Prop :=
  code ≠ 5 → c.stop = false →
    (s.phase = .running → s.stop = false →
      (∃ b, waitOutcome s.waitStarted = some (code, b) ∧ c = b.interlude) → exec .schedIterate s = .next t) ∧
    (s.blockedIn .iterate →
      (∃ b, waitOutcome s.waitResumed = some (code, b) ∧ c = b.interlude) → step s = .next t)

/-- A sensor read that failed, noted (rule R269). -/
def State.pollFailed (c : Channel) (o : Origin) (s : State) : State :=
  let f := s.exchangeFailed (pollOps c)
  { f with diag := f.diag ++ [{ time := f.now, status := .bus, origin := o }], err := true }

/-- The red LED switched on in the sensor error path, a failure of that write noted (rule R269). -/
def State.redLit (s : State) : State :=
  let v : Byte := (s.cacheB &&& 0xFE) ||| 0x01
  if s.xmPresent = false then s
  else if s.nextDraw.outcome = .busError then
    let h := s.exchangeFailed [.writeBytes 0x20 [0x13, v]]
    { h with diag := h.diag ++ [{ time := h.now, status := .bus, origin := .redLed }] }
  else s.writtenB v

/-- One channel's part of the sensor-read step: the value read, if any, and the state (rule R269). -/
def State.polled (c : Channel) (o : Origin) (s : State) : Option Temp × State :=
  if s.nextDraw.outcome = .busError then (none, (s.pollFailed c o).redLit)
  else (some (sensedReading c s.nextDraw).value, s.sensed c s.nextDraw)

/-- The sensor-read step (rules R269, R270). -/
def State.sensorsRead (s : State) : State :=
  let p := s.polled s.ch0 .sensor0
  let q := p.2.polled s.ch1 .sensor1
  let temp0 := if p.1 = none then s.temp0 else p.1
  let temp1 := if q.1 = none then s.temp1 else q.1
  let ts := if p.1 = none ∧ q.1 = none then s.ts else some q.2.now
  { q.2 with
    temp0 := temp0, temp1 := temp1, ts := ts, pub := { temp0 := temp0, temp1 := temp1, ts := ts } }

/-- A start-up step that may find its unit absent: the state after `try i except HardwareAbsent` (rule R261).
The request `i` is asked on its own here, so its response is set aside. -/
def triedAtStart (i : Instr) (o : Origin) (s t : State) : Prop :=
  exec i s = .next (t.respond [0]) ∨
    ∃ u : State, exec i s = .next (u.respond [3]) ∧
      t = { u with diag := u.diag ++ [{ time := u.now, status := .hardwareAbsent, origin := o }] }

/-- The end of a successful start-up (rule R261). -/
def State.armed (s : State) : State :=
  { s with
    ts := some s.now
    pub := { temp0 := s.temp0, temp1 := s.temp1, ts := some s.now }
    dispDl := s.now
    logDl := s.now + s.params.logPeriod
    phase := .running }

/-- A sensor probe that failed at start-up (rules R261, R318). -/
def State.probeFailed (c : Channel) (o : Origin) (s : State) : State :=
  let f := s.exchangeFailed (pollOps c)
  { f with diag := f.diag ++ [{ time := f.now, status := .bus, origin := o }], phase := .fatal }

/-! ## The invariant -/

/-- A temperature that the codec can produce (42_codec.md rule R234: `|s| <= 4096`). -/
def tempInRange (t : Temp) : Prop := -4096 ≤ t.sixteenths ∧ t.sixteenths ≤ 4096

/-- Nothing published (10_state.md rule R44). -/
def Snapshot.empty : Snapshot := { temp0 := none, temp1 := none, ts := none }

/-- What holds of every state a run reaches. -/
structure State.Inv (s : State) : Prop where
  /-- the periods are greater than 0 (00_scope.md rule R7) -/
  periods : 0 < s.params.logPeriod ∧ 0 < s.params.displayPeriod ∧ 0 < s.params.waitTimeout
  /-- a LOOP request is in progress between steps in phase Running only (43_scheduler.md rules R263, R279) -/
  busy : s.loop ≠ .idle → s.phase = .running
  /-- before START no reading exists and nothing is published (rules R41, R44) -/
  unread : s.phase = .reset → s.temp0 = none ∧ s.temp1 = none ∧ s.ts = none ∧ s.pub = Snapshot.empty
  /-- after a successful START the readings exist and `PUB` is the whole triple (rules R261, R270) -/
  published : s.phase = .running ∨ s.phase = .stopped →
    s.temp0.isSome = true ∧ s.temp1.isSome = true ∧ s.ts.isSome = true ∧
      s.pub = { temp0 := s.temp0, temp1 := s.temp1, ts := s.ts }
  /-- a fatal start-up publishes nothing (rule R261) -/
  unpublished : s.phase = .fatal → s.ts = none ∧ s.pub = Snapshot.empty
  /-- a wait starts in the past (rule R33) -/
  waited : s.waitStart ≤ s.now
  /-- a reading's time is in the past (rule R42) -/
  stamped : ∀ t, s.ts = some t → t ≤ s.now
  /-- the readings are in the codec's range (42_codec.md rule R234) -/
  ranges : (∀ t, s.temp0 = some t → tempInRange t) ∧ (∀ t, s.temp1 = some t → tempInRange t)
  /-- the log's timestamps never decrease (rule R284 law 5) -/
  logOrdered : (s.log.map (·.time)).Pairwise (· ≤ ·) ∧ ∀ r ∈ s.log, r.time ≤ s.now
  /-- the diagnostic records' times never decrease (rule R45) -/
  diagOrdered : (s.diag.map (·.time)).Pairwise (· ≤ ·) ∧ ∀ r ∈ s.diag, r.time ≤ s.now
  /-- no deadline is more than one period ahead (rule R266) -/
  deadlines : s.logDl ≤ s.now + s.params.logPeriod ∧ s.dispDl ≤ s.now + s.params.displayPeriod

/-! ## The law of the caches (40_expander.md rule R144) -/

/-- The data byte of the last successful register write to one of `regs`, or `d` if there was none. -/
def lastWritten (regs : List Byte) (d : Byte) (trace : List BusRecord) : Byte :=
  trace.foldl (fun v r =>
    match r with
    | { ops := [.writeBytes a [reg, w]], outcome := some _ } => if a = expAddr ∧ reg ∈ regs then w else v
    | _ => v) d

/-- The caches and the shadow are what the trace says was last written. -/
structure State.CacheLaw (s : State) : Prop where
  cacheB : s.cacheB = lastWritten [regGpiob, regOlatb] 0x00 s.trace
  cacheA : s.cacheA = lastWritten [regGpioa, regOlata] 0x00 s.trace
  iodira : s.shadow.iodira = lastWritten [regIodira] 0xFF s.trace
  iodirb : s.shadow.iodirb = lastWritten [regIodirb] 0xFF s.trace
  ipola : s.shadow.ipola = lastWritten [regIpola] 0x00 s.trace
  ipolb : s.shadow.ipolb = lastWritten [regIpolb] 0x00 s.trace
  gpintena : s.shadow.gpintena = lastWritten [regGpintena] 0x00 s.trace
  gpintenb : s.shadow.gpintenb = lastWritten [regGpintenb] 0x00 s.trace
  gppua : s.shadow.gppua = lastWritten [regGppua] 0x00 s.trace
  gppub : s.shadow.gppub = lastWritten [regGppub] 0x00 s.trace

end Sys2Proof.Machine
end

