-- ==== Sys2Proof/Certificates/Slice0/Obligations.lean ====
section
/-! DEFINITION. The statements for the provers. A next state is written out whole (a record update of the
state before, or of the state the environment's steps give), so every field a statement does not name keeps its
value: that is its frame. The environment's own steps (`State.elapse`, `State.elapsed`, `State.settle`,
`State.interlude`) change `NOW`, the flags and ports that ENV and REQ write, the responses to REQ, and the
draws used, and nothing else. -/

open Sys2Proof Sys2Proof.Machine

/-! ## Encoding -/

/-- Decoding an encoded request gives it back, with every operand at every value, and leaves the bytes after it
(30_encoding.md R90, R92, R93). -/
def Obligations.DecodeEncodeRoundTrip : Prop :=
  ∀ (i : Instr) (rest : List Byte), i.wf = true → decode (encode i ++ rest) = .ok (i, rest)

/-- The decoder reads nothing but encodings: what it accepts is the encoding of the well-formed request it
answers, followed by the bytes it hands back. -/
def Obligations.DecodeReadsOnlyEncodings : Prop :=
  ∀ (bytes rest : List Byte) (i : Instr), decode bytes = .ok (i, rest) →
    i.wf = true ∧ bytes = encode i ++ rest

/-- 30_encoding.md R94: the reserved op codes are those that no request has, and a request with one is refused,
for the whole run. -/
def Obligations.ReservedOpCodesRefused : Prop :=
  (∀ op : Byte, reservedOpCode op ↔ ∀ i : Instr, (encode i).head? ≠ some op) ∧
    ∀ (op : Byte) (rest : List Byte) (s : State), reservedOpCode op → s.nextBytes (op :: rest) →
      step s = .refused (.reservedOp op) ∧ ∀ k, core.run (k + 1) s = .refused (.reservedOp op)

/-- 30_encoding.md R95: a request that ends before its op's length is refused, and so is a request of REQ other
than its three. -/
def Obligations.ShortAndForeignRequestsRefused : Prop :=
  (∀ (i : Instr) (op : Byte) (bytes : List Byte) (s : State), i.wf = true → (op :: bytes) <+: encode i →
      (op :: bytes).length < (encode i).length → s.nextBytes (op :: bytes) →
      step s = .refused (.shortRequest op)) ∧
    ∀ (i : Instr) (op : Byte) (bytes rest : List Byte) (s : State), i.wf = true → encode i = op :: bytes →
      i ≠ .schedWake → i ≠ .schedStop → i ≠ .schedSnapshot → s.reqPort = op :: bytes ++ rest →
      step s = .refused (.notForReq op)

/-- A few requests as the spec writes their bytes (95_test_vectors.md section 7) decode to what they stand for. -/
def Obligations.WrittenRequestsDecode : Prop :=
  decode [0x00, 0x19, 0x00, 0x00] = .ok (.tcDecodeA 0x19 0x00 0x00, []) ∧
    decode [0x01, 0x40, 0x62, 0xC0, 0x00, 0x00, 0x00, 0x00, 0x00, 0x01] =
      .ok (.tcEncodeA 0x4062C00000000000 0x01, []) ∧
    decode [0x05, 0x00, 0x01, 0x40, 0x3E, 0x00, 0x00, 0x00, 0x00, 0x00, 0x00] =
      .ok (.scWriteThreshold 0x00 0x01 0x403E000000000000, []) ∧
    decode [0x24, 0x01] = .ok (.xmSetRed 0x01, []) ∧
    decode [0x4F, 0x03, 0xFF] = .ok (.lcdSetPos 0x03 0xFF, []) ∧
    decode [0x50, 0x04, 0x48, 0x69, 0x0A, 0x58, 0x24, 0x01] =
      .ok (.lcdMessage [0x48, 0x69, 0x0A, 0x58], [0x24, 0x01]) ∧
    decode [0x51, 0x01, 0x01, 0x1F] = .ok (.lcdCreateChar 0x01 [0x1F], []) ∧
    decode [0x62] = .ok (.schedIterate, [])

/-! ## The step -/

/-- A step runs the decoded request: LOOP's when REQ asks nothing, no LOOP request is in progress and the
environment has had its turn after the last one, REQ's at once. Around `exec` the step takes the request's bytes
from its port, notes whose request it is, and after a LOOP request leaves the next turn to the environment. The
two ports, with REQ's looked at first, are the model's choice (log 7), and so is the turn between two LOOP requests
(log 28). That LOOP may issue SCHED.WAKE, SCHED.STOP and SCHED.SNAPSHOT too is the model's reading of
60_exceptions.md R322 against 43_scheduler.md R260 (log 23). -/
def Obligations.StepRunsTheDecodedRequest : Prop :=
  (∀ (s : State) (i : Instr) (rest : List Byte), s.reqPort = [] → s.loop = .idle → s.gap = false →
      decode s.hostPort = .ok (i, rest) →
      step s = exec i { s with hostPort := rest, agent := .loop, gap := true }) ∧
    ∀ (s : State) (i : Instr) (rest : List Byte), i = .schedWake ∨ i = .schedStop ∨ i = .schedSnapshot →
      decode s.reqPort = .ok (i, rest) → step s = exec i { s with reqPort := rest, agent := .req }

/-- What a step does when no request is to be taken. Idle, and once between two LOOP requests (the model's
reading, log 27 and log 28): time passes and the environment acts. SCHED.WAIT and SCHED.ITERATE with no source
ready block, and a blocked one is evaluated again after time passed and the environment acted (43_scheduler.md
R263; one evaluation a step is the model's choice, log 6). Between two passes of SCHED.RUN (R279): the
environment acts with no time passing (log 4, log 5), then the next pass. -/
def Obligations.StepsWithoutRequest : Prop :=
  ∀ s : State,
    (s.reqPort = [] → s.loop = .idle → s.gap = true ∨ s.hostPort = [] →
      step s = .next ({ s with gap := false } : State).elapse) ∧
    (s.phase = .running → waitOutcome { s with waitStart := s.now } = none →
      exec .schedWait s = .next { s with waitStart := s.now, loop := .waiting .wait }) ∧
    (s.blockedIn .wait →
      (∀ code b, waitOutcome s.waitResumed = some (code, b) → step s = .next (b.answered code)) ∧
        (waitOutcome s.waitResumed = none → step s = .next s.waitResumed)) ∧
    (s.phase = .running → s.stop = false → waitOutcome s.waitStarted = none →
      exec .schedIterate s = .next { s.waitStarted with loop := .waiting .iterate }) ∧
    (s.blockedIn .iterate → waitOutcome s.waitResumed = none → step s = .next s.waitResumed) ∧
    (s.reqPort = [] → s.loop = .running → s.phase = .running →
      step s = exec .schedRun ({ s with agent := .loop } : State).interlude)

/-- The reset column of 10_state.md R21, with the parameters of 00_scope.md R7 that have a value. -/
def Obligations.ResetValues : Prop :=
  let r := State.reset
  r.ch0 = { addr := 0x48, variant := .b, ext := false, res := .r12 } ∧
    r.ch1 = { addr := 0x49, variant := .b, ext := false, res := .r12 } ∧
    r.shadow = { iodira := 0xFF, iodirb := 0xFF, ipola := 0, ipolb := 0, gpintena := 0, gpintenb := 0,
                 gppua := 0, gppub := 0 } ∧
    r.cacheB = 0 ∧ r.cacheA = 0 ∧ r.xmPresent = false ∧ r.entry = 0b10 ∧ r.dctrl = 0b100 ∧
    r.lcdPresent = false ∧ r.logDl = 0 ∧ r.dispDl = 0 ∧ r.waitStart = 0 ∧ r.wake = false ∧ r.stop = false ∧
    r.irqPend = false ∧ r.intPrev = false ∧ r.phase = .reset ∧ r.fmt = .combined ∧ r.temp0 = none ∧
    r.temp1 = none ∧ r.ts = none ∧ r.err = false ∧ r.pub = { temp0 := none, temp1 := none, ts := none } ∧
    r.log = [] ∧ r.diag = [] ∧ r.trace = [] ∧ r.params.encTop = .saturate

/-- The machine right after reset meets both invariants. -/
def Obligations.ResetMeetsInvariants : Prop := State.reset.Inv ∧ State.reset.CacheLaw

/-- Every step keeps the invariant. -/
def Obligations.StepKeepsInvariant : Prop := ∀ s t : State, s.Inv → step s = .next t → t.Inv

/-- Every step keeps the law of the caches (40_expander.md R144). -/
def Obligations.StepKeepsCacheLaw : Prop := ∀ s t : State, s.CacheLaw → step s = .next t → t.CacheLaw

/-- `NOW` never decreases (10_state.md R31), and the streams and the responses are append-only (R45). -/
def Obligations.StepIsMonotone : Prop :=
  ∀ s t : State, step s = .next t →
    s.now ≤ t.now ∧ s.trace <+: t.trace ∧ s.log <+: t.log ∧ s.diag <+: t.diag ∧ s.responses <+: t.responses

/-- What no step takes back: a stop request (10_state.md R35), the error indicator (R43), phases Stopped and
Fatal (R38), the configuration (R22) and the parameters (70_reset_and_hazards.md R343). In phases Stopped and
Fatal the scheduler writes nothing (43_scheduler.md R283). -/
def Obligations.StickyState : Prop :=
  ∀ s t : State, s.Inv → step s = .next t →
    (s.stop = true → t.stop = true) ∧ (s.err = true → t.err = true) ∧
    (s.phase = .stopped ∨ s.phase = .fatal →
      t.phase = s.phase ∧ t.temp0 = s.temp0 ∧ t.temp1 = s.temp1 ∧ t.ts = s.ts ∧ t.pub = s.pub ∧ t.fmt = s.fmt ∧
        t.err = s.err ∧ t.log = s.log ∧ t.diag = s.diag ∧ t.logDl = s.logDl ∧ t.dispDl = s.dispDl) ∧
    t.ch0 = s.ch0 ∧ t.ch1 = s.ch1 ∧ t.params = s.params

/-- The "writers" column of 10_state.md R21: an element changes in the requests that write it only. What ENV and
the interrupt edge write (`NOW`, `INT_PREV`, the setting of `IRQ_PEND`), and what REQ sets from outside (`WAKE`,
`STOP`), changes only where the request uses a draw of the environment, SCHED.WAKE and SCHED.STOP themselves
apart; `NOW` never decreases, and `STOP` is never cleared. The streams are append-only (StepIsMonotone). -/
def Obligations.OnlyTheWritersWrite : Prop :=
  ∀ (i : Instr) (s t : State), exec i s = .next t →
    t.ch0 = s.ch0 ∧ t.ch1 = s.ch1 ∧ t.params = s.params ∧ t.gap = s.gap ∧ t.agent = s.agent ∧
    (t.shadow = s.shadow ∨ setsUpExpander i ∨ ∃ reg v, i = .xmWrite reg v) ∧
    (t.cacheA = s.cacheA ∨ (∃ reg v, i = .xmWrite reg v) ∨ ∃ on, i = .xmSetGreen on ∨ i = .xmSetBacklight on) ∧
    (t.cacheB = s.cacheB ∨ isLcd i ∨ readsSensors i ∨ (∃ reg v, i = .xmWrite reg v) ∨
      ∃ v, i = .xmWriteB v ∨ i = .xmSetRed v) ∧
    (t.xmPresent = s.xmPresent ∨ setsUpExpander i) ∧
    (t.lcdPresent = s.lcdPresent ∨ setsUpDisplay i) ∧
    (t.entry = s.entry ∨ setsUpDisplay i ∨ i = .lcdReset ∨ i = .lcdLeftToRight ∨ i = .lcdRightToLeft ∨
      ∃ on, i = .lcdSetAutoscroll on) ∧
    (t.dctrl = s.dctrl ∨ setsUpDisplay i ∨ i = .lcdReset ∨
      ∃ on, i = .lcdSetDisplay on ∨ i = .lcdSetCursor on ∨ i = .lcdSetBlink on) ∧
    (t.fmt = s.fmt ∨ i = .schedIterate ∨ i = .schedRun) ∧
    (t.err = s.err ∨ i = .schedIterate ∨ i = .schedRun) ∧
    (t.log = s.log ∨ i = .schedIterate ∨ i = .schedRun) ∧
    ((t.temp0 = s.temp0 ∧ t.temp1 = s.temp1 ∧ t.ts = s.ts ∧ t.pub = s.pub ∧ t.diag = s.diag) ∨
      readsSensors i) ∧
    (t.phase = s.phase ∨ readsSensors i) ∧
    (t.logDl = s.logDl ∨ i = .schedStart ∨ waits i) ∧
    (t.dispDl = s.dispDl ∨ i = .schedStart ∨ waits i ∨ i = .schedRestartDisplay) ∧
    (t.waitStart = s.waitStart ∨ waits i) ∧
    (t.loop = s.loop ∨ waits i) ∧
    s.now ≤ t.now ∧
    (s.stop = true → t.stop = true) ∧
    ((s.wake = true → t.wake = true) ∨ waits i) ∧
    ((s.irqPend = true → t.irqPend = true) ∨ waits i) ∧
    (t.env = s.env → t.drawn = s.drawn →
      t.now = s.now ∧ t.intPrev = s.intPrev ∧ (t.irqPend = true → s.irqPend = true) ∧
        (t.stop = s.stop ∨ i = .schedStop) ∧ ((t.wake = true → s.wake = true) ∨ i = .schedWake))

/-- Every request ends in a next state, never in a fault or a refusal, and gets exactly one response, the newest,
whatever the responses to REQ before it (30_encoding.md R91, 60_exceptions.md R315). Only the three requests that
wait may still be in progress after the step, and then they have got none yet. -/
def Obligations.OneResponsePerRequest : Prop :=
  ∀ (i : Instr) (s : State), ∃ (t : State) (served : List (Agent × List Byte)),
    exec i s = .next t ∧ (∀ r ∈ served, r.1 = .req) ∧
      ((∃ bytes, t.responses = s.responses ++ served ++ [(s.agent, bytes)]) ∨
        ((i = .schedWait ∨ i = .schedIterate ∨ i = .schedRun) ∧ t.loop ≠ .idle ∧
          t.responses = s.responses ++ served))

/-! ## Errors -/

/-- 60_exceptions.md R312: a cause of a ConfigurationError ends the request with status 2 and changes nothing
else, and without a cause no request answers status 2. Where a request has a `bool` operand, its byte is checked
before the display's presence (the model's reading of R316 against 41_lcd.md R174, log 8). -/
def Obligations.ConfigurationErrors : Prop :=
  ∀ (i : Instr) (s : State),
    (configurationCause i s → exec i s = .next (s.respond [2])) ∧
    ∀ t, exec i s = .next t → newResponse s t = some (s.agent, [2]) → configurationCause i s

/-- 60_exceptions.md R311 and R313: only the requests of the table answer BusError, and then the newest trace
record is the failing transaction's; HardwareAbsent has one of the four causes. -/
def Obligations.BusErrorAndHardwareAbsentHaveTheirCauses : Prop :=
  ∀ (i : Instr) (s t : State), exec i s = .next t →
    (newResponse s t = some (s.agent, [1]) →
      canAnswerBusError i ∧ ∃ ops, t.trace.getLast? = some { ops := ops, outcome := none }) ∧
    (newResponse s t = some (s.agent, [3]) → hardwareCause i s t)

/-! ## The request server and the interrupt line -/

/-- 43_scheduler.md R276 and R277: SCHED.WAKE and SCHED.STOP set their flag, in every phase. -/
def Obligations.WakeAndStopResults : Prop :=
  ∀ s : State,
    exec .schedWake s = .next (({ s with wake := true } : State).respond [0]) ∧
    exec .schedStop s = .next (({ s with stop := true } : State).respond [0])

/-- 43_scheduler.md R278: SCHED.SNAPSHOT answers the presence mask and the published triple, an absent value
as 0. A temperature is the binary64 of its value; the premise on it is part of the machine's invariant. The
bytes of a timestamp that does not fit 64 bits are not stated by the spec and stay open (log 10). -/
def Obligations.SnapshotResult : Prop :=
  ∀ s : State,
    (∀ v, s.pub.temp0 = some v → tempInRange v) → (∀ v, s.pub.temp1 = some v → tempInRange v) →
    ∃ (present v0 v1 v2 : Nat) (f0 f1 : F64) (w : BitVec 64),
      exec .schedSnapshot s =
        .next (s.respond (0 :: BitVec.ofNat 8 present :: (be64 f0 ++ be64 f1 ++ be64 w))) ∧
      present = v0 + 2 * v1 + 4 * v2 ∧
      ((s.pub.temp0 = none ∧ v0 = 0 ∧ f0 = 0) ∨ ∃ v, s.pub.temp0 = some v ∧ v0 = 1 ∧ isF64Of f0 v.celsius) ∧
      ((s.pub.temp1 = none ∧ v1 = 0 ∧ f1 = 0) ∨ ∃ v, s.pub.temp1 = some v ∧ v1 = 1 ∧ isF64Of f1 v.celsius) ∧
      ((s.pub.ts = none ∧ v2 = 0 ∧ w = 0) ∨
        ∃ t, s.pub.ts = some t ∧ v2 = 1 ∧ (t < 2 ^ 64 → w = BitVec.ofNat 64 t))

/-- 20_memory.md R76: a request of REQ changes `WAKE` and `STOP` only, to 1, and its port and responses; inside a
LOOP step it does what the request itself does; and all that the environment and REQ do in one LOOP step, whatever
the time and the acts, changes nothing that LOOP owns, `PUB` among it, and clears none of `WAKE`, `STOP` and
`IRQ_PEND`. The same of each kind of LOOP step in which they act. -/
def Obligations.RequestServerTouchesOnlyItsFlags : Prop :=
  (∀ s t : State, s.reqPort ≠ [] → step s = .next t →
      t = { s with wake := t.wake, stop := t.stop, reqPort := t.reqPort, responses := t.responses, agent := .req } ∧
        (s.wake = true → t.wake = true) ∧ (s.stop = true → t.stop = true)) ∧
  (∀ (i : Instr) (rest : List Byte) (s t : State), i = .schedWake ∨ i = .schedStop ∨ i = .schedSnapshot →
      exec i { s with agent := .req } = .next t →
      serveReq (encode i ++ rest) s = serveReq rest { t with agent := s.agent }) ∧
  (∀ (s : State) (bytes : List Byte),
    serveReq bytes s =
      { s with wake := (serveReq bytes s).wake, stop := (serveReq bytes s).stop,
               reqPort := (serveReq bytes s).reqPort, responses := (serveReq bytes s).responses }) ∧
  (∀ (s : State) (ms : Nat) (acts : List EnvAct),
    let t := s.surround ms acts
    t = { s with
      now := s.now + ms, wake := t.wake, stop := t.stop, irqPend := t.irqPend, intPrev := t.intPrev,
      hostPort := t.hostPort, reqPort := t.reqPort, responses := t.responses } ∧
    (s.wake = true → t.wake = true) ∧ (s.stop = true → t.stop = true) ∧ (s.irqPend = true → t.irqPend = true)) ∧
  ∀ s t : State, t = s.elapse ∨ t = s.interlude ∨ t = s.settle →
    t = { s with
      now := t.now, wake := t.wake, stop := t.stop, irqPend := t.irqPend, intPrev := t.intPrev,
      hostPort := t.hostPort, reqPort := t.reqPort, responses := t.responses, env := t.env, drawn := t.drawn } ∧
    (s.wake = true → t.wake = true) ∧ (s.stop = true → t.stop = true) ∧ (s.irqPend = true → t.irqPend = true)

/-- 43_scheduler.md R281, in every phase: when the environment sets the line, an assertion edge (the line goes low)
sets the pending latch, and the detector keeps the new level. -/
def Obligations.InterruptEdgeDetector : Prop :=
  ∀ (s : State) (high : Bool),
    s.act (.line high) =
      { s with
        irqPend := if high = false ∧ s.intPrev = false then true else s.irqPend
        intPrev := if high = false then true else false }

/-! ## U1: codec and sensors -/

/-- 42_codec.md R221: the signed code of the two bytes, and its sixteenth as a binary64. -/
def Obligations.TcDecodeAResult : Prop :=
  ∀ (hi lo ext : Byte) (s : State),
    (1 < ext.toNat → exec (.tcDecodeA hi lo ext) s = .next (s.respond [2])) ∧
    (ext.toNat ≤ 1 →
      let x := ext.toNat
      let u : Nat := (hi.toNat <<< (4 + x)) ||| (lo.toNat >>> (4 - x))
      let raw : Int := if 128 ≤ hi.toNat then (u : Int) - 2 ^ (12 + x) else u
      ∃ v, isF64Of v ((raw : Rat) / 16) ∧
        exec (.tcDecodeA hi lo ext) s = .next (s.respond (0 :: (be16 raw ++ be64 v))))

/-- 42_codec.md R222 (with R223 and R224): clamp, scale, truncate toward zero, saturate, pack. -/
def Obligations.TcEncodeAResult : Prop :=
  ∀ (x : F64) (ext : Byte) (s : State),
    (1 < ext.toNat ∨ isNaN x → exec (.tcEncodeA x ext) s = .next (s.respond [2])) ∧
    (∀ xc, ext.toNat ≤ 1 → clampedValue (-55) (if ext.toNat = 1 then 150 else 128) (f64Value x) = some xc →
      let e := ext.toNat
      let u := unsignedCode s.params.encTop (12 + e) (xc * 16)
      exec (.tcEncodeA x ext) s = .next (s.respond
        [0, BitVec.ofNat 8 (u >>> (4 + e)), BitVec.ofNat 8 (((u <<< (4 - e)) &&& 0xFF) ||| e)])) ∧
    (ext.toNat ≤ 1 → ¬ isNaN x →
      ∃ xc, clampedValue (-55) (if ext.toNat = 1 then 150 else 128) (f64Value x) = some xc)

/-- 42_codec.md R227: the code is the top R bits of the word, and weighs `2^-(R-8)`. -/
def Obligations.TcDecodeBResult : Prop :=
  ∀ (hi lo res : Byte) (s : State),
    (res.toNat < 9 ∨ 12 < res.toNat → exec (.tcDecodeB hi lo res) s = .next (s.respond [2])) ∧
    (9 ≤ res.toNat → res.toNat ≤ 12 →
      let r := res.toNat
      let u : Nat := ((hi.toNat <<< 8) ||| lo.toNat) >>> (16 - r)
      let raw : Int := if 128 ≤ hi.toNat then (u : Int) - 2 ^ r else u
      ∃ v, isF64Of v ((raw : Rat) / 2 ^ (r - 8)) ∧
        exec (.tcDecodeB hi lo res) s = .next (s.respond (0 :: (be16 raw ++ be64 v))))

/-- 42_codec.md R228. -/
def Obligations.TcEncodeBResult : Prop :=
  ∀ (x : F64) (res : Byte) (s : State),
    (res.toNat < 9 ∨ 12 < res.toNat ∨ isNaN x → exec (.tcEncodeB x res) s = .next (s.respond [2])) ∧
    (∀ xc, 9 ≤ res.toNat → res.toNat ≤ 12 → clampedValue (-55) 128 (f64Value x) = some xc →
      let r := res.toNat
      let w := unsignedCode s.params.encTop r (xc * 2 ^ (r - 8)) <<< (16 - r)
      exec (.tcEncodeB x res) s = .next (s.respond
        [0, BitVec.ofNat 8 (w >>> 8), BitVec.ofNat 8 (w &&& 0xFF)])) ∧
    (¬ isNaN x → ∃ xc, clampedValue (-55) 128 (f64Value x) = some xc)

/-- 42_codec.md R225: encoding a temperature in range and decoding the bytes gives it truncated to a sixteenth,
within one step; strictly, but at 128 in normal mode. -/
def Obligations.TemperatureRoundTripA : Prop :=
  ∀ (x : F64) (d : DyadicNumber) (ext : Bool) (s : State), s.params.encTop = .saturate → f64Value x = .finite d →
    -55 ≤ dyadicRat d → dyadicRat d ≤ highA ext →
    ∃ (hi lo : Byte) (raw : Int) (v : F64) (q : Rat),
      exec (.tcEncodeA x (boolByte ext)) s = .next (s.respond [0, hi, lo]) ∧
      exec (.tcDecodeA hi lo (boolByte ext)) s = .next (s.respond (0 :: (be16 raw ++ be64 v))) ∧
      isF64Of v q ∧
      q = (if ext = false ∧ dyadicRat d = 128 then 2047 / 16 else (truncRat (16 * dyadicRat d) : Rat) / 16) ∧
      |q - dyadicRat d| ≤ 1 / 16 ∧ (¬ (ext = false ∧ dyadicRat d = 128) → |q - dyadicRat d| < 1 / 16)

/-- 42_codec.md R226: decoding two bytes and encoding the temperature gives the bytes back exactly for the
canonical pairs; any other pair gives the canonical pair of its clamped value. The rule's counts are left out. -/
def Obligations.BytePairRoundTripA : Prop :=
  ∀ (hi lo : Byte) (ext : Bool) (raw : Int) (v : F64) (s : State),
    exec (.tcDecodeA hi lo (boolByte ext)) s = .next (s.respond (0 :: (be16 raw ++ be64 v))) →
    (exec (.tcEncodeA v (boolByte ext)) s = .next (s.respond [0, hi, lo]) ↔ canonicalA ext hi lo) ∧
    ∃ h l, exec (.tcEncodeA v (boolByte ext)) s = .next (s.respond [0, h, l]) ∧ canonicalA ext h l ∧
      (decodeA ext h l).value.celsius = min (max (decodeA ext hi lo).value.celsius (-55)) (highA ext)

/-- 42_codec.md R229: both round-trip laws of variant B. The rule's counts are left out. -/
def Obligations.RoundTripsB : Prop :=
  (∀ (x : F64) (d : DyadicNumber) (r : Resolution), f64Value x = .finite d → -55 ≤ dyadicRat d → dyadicRat d ≤ 128 →
      ∃ p, encodeB .saturate r x = some p ∧
        (decodeB r p.1 p.2).value.celsius =
          (if dyadicRat d = 128 then (2 ^ (resBits r - 1) - 1 : Rat) / 2 ^ (resBits r - 8)
           else (truncRat (dyadicRat d * 2 ^ (resBits r - 8)) : Rat) / 2 ^ (resBits r - 8)) ∧
        |(decodeB r p.1 p.2).value.celsius - dyadicRat d| ≤ 1 / 2 ^ (resBits r - 8)) ∧
    ∀ (hi lo : Byte) (r : Resolution) (v : F64) (policy : EncTop), isF64Of v (decodeB r hi lo).value.celsius →
      (encodeB policy r v = some (hi, lo) ↔ canonicalB r hi lo)

/-- 42_codec.md R230: variant A in normal mode is the 12-bit member of variant B, and no other. -/
def Obligations.VariantsAgreeAtTwelveBits : Prop :=
  (∀ hi lo : Byte, decodeB .r12 hi lo = decodeA false hi lo) ∧
    (∀ (policy : EncTop) (x : F64), encodeB policy .r12 x = encodeA policy false x) ∧
    (∃ hi lo : Byte, decodeB .r12 hi lo ≠ decodeA true hi lo) ∧
    ∀ r : Resolution, r ≠ .r12 → ∃ hi lo : Byte, decodeB r hi lo ≠ decodeA false hi lo

/-- 42_codec.md R233, laws 1, 2, 4 and 5 and the monotone decode of law 3: decoding is an arithmetic right shift
of the signed word, then a scale. -/
def Obligations.DecodeIsArithmeticShift : Prop :=
  ∀ hi lo hi' lo' : Byte,
    let sw : Int := (hi ++ lo : BitVec 16).toInt
    let sw' : Int := (hi' ++ lo' : BitVec 16).toInt
    (∀ ext : Bool,
      (decodeA ext hi lo).raw = ⌊(sw : Rat) / 2 ^ (4 - ext.toNat)⌋ ∧
      ((decodeA ext hi lo).value.celsius < 0 ↔ 128 ≤ hi.toNat) ∧
      (sw ≤ sw' → (decodeA ext hi lo).value.celsius ≤ (decodeA ext hi' lo').value.celsius) ∧
      (lo.toNat / 2 ^ (4 - ext.toNat) = lo'.toNat / 2 ^ (4 - ext.toNat) →
        decodeA ext hi lo = decodeA ext hi lo') ∧
      (decodeA ext hi lo).value.celsius = (⌊(sw : Rat) / (if ext then 128 else 256) * 16⌋ : Rat) / 16) ∧
    ∀ r : Resolution,
      (decodeB r hi lo).raw = ⌊(sw : Rat) / 2 ^ (16 - resBits r)⌋ ∧
      ((decodeB r hi lo).value.celsius < 0 ↔ 128 ≤ hi.toNat) ∧
      (sw ≤ sw' → (decodeB r hi lo).value.celsius ≤ (decodeB r hi' lo').value.celsius) ∧
      (lo.toNat / 2 ^ (16 - resBits r) = lo'.toNat / 2 ^ (16 - resBits r) →
        decodeB r hi lo = decodeB r hi lo') ∧
      (decodeB r hi lo).value.celsius =
        (⌊(sw : Rat) / 256 * 2 ^ (resBits r - 8)⌋ : Rat) / 2 ^ (resBits r - 8)

/-- 42_codec.md R233, the encode sides of laws 3 and 4, with the top saturated: encoding is monotone, and sets no
discarded bit but the extended-mode bit. -/
def Obligations.EncodeIsMonotone : Prop :=
  ∀ (x y : F64) (p q : Byte × Byte),
    (∀ ext : Bool, encodeA .saturate ext x = some p →
      (if ext then p.2.toNat % 8 = 1 else p.2.toNat % 16 = 0) ∧
      (encodeA .saturate ext y = some q → numericLe (f64Value x) (f64Value y) →
        (decodeA ext p.1 p.2).raw ≤ (decodeA ext q.1 q.2).raw)) ∧
    ∀ r : Resolution, encodeB .saturate r x = some p →
      p.2.toNat % 2 ^ (16 - resBits r) = 0 ∧
      (encodeB .saturate r y = some q → numericLe (f64Value x) (f64Value y) →
        (decodeB r p.1 p.2).raw ≤ (decodeB r q.1 q.2).raw)

/-- 42_codec.md R234: a decode's value is in the stated range, its binary64 is exact, and it is the only one. -/
def Obligations.DecodedValuesAreExact : Prop :=
  (∀ (ext : Bool) (hi lo : Byte), tempInRange (decodeA ext hi lo).value) ∧
    (∀ (r : Resolution) (hi lo : Byte), tempInRange (decodeB r hi lo).value) ∧
    (∀ t : Temp, tempInRange t → isF64Of (f64OfTemp t) t.celsius) ∧
    ∀ (t : Temp) (v : F64), tempInRange t → isF64Of v t.celsius → v = f64OfTemp t

/-- 42_codec.md R231 and R235: SC.READ is one transaction; its results are the two bytes and what the channel's
variant makes of them. -/
def Obligations.ScReadResult : Prop :=
  ∀ (ch : Byte) (s : State),
    (1 < ch.toNat → exec (.scRead ch) s = .next (s.respond [2])) ∧
    ∀ c, (ch = 0 ∧ c = s.ch0) ∨ (ch = 1 ∧ c = s.ch1) →
      (s.nextDraw.outcome = .busError →
        exec (.scRead ch) s = .next ((s.exchangeFailed (pollOps c)).respond [1])) ∧
      (s.nextDraw.outcome ≠ .busError →
        ∃ v, isF64Of v (sensedReading c s.nextDraw).value.celsius ∧
          exec (.scRead ch) s = .next ((s.sensed c s.nextDraw).respond
            (0 :: (sensedPair s.nextDraw).1 :: (sensedPair s.nextDraw).2 ::
              (be16 (sensedReading c s.nextDraw).raw ++ be64 v))))

/-- 42_codec.md R232: SC.WRITE_THRESHOLD encodes with the channel's variant and writes both bytes, the high one
first, in one transaction. -/
def Obligations.ScWriteThresholdResult : Prop :=
  ∀ (ch which : Byte) (x : F64) (s : State),
    (1 < ch.toNat ∨ 1 < which.toNat ∨ isNaN x → exec (.scWriteThreshold ch which x) s = .next (s.respond [2])) ∧
    ∀ c ptr, (ch = 0 ∧ c = s.ch0) ∨ (ch = 1 ∧ c = s.ch1) →
      (which = 0 ∧ ptr = 0x02) ∨ (which = 1 ∧ ptr = (0x03 : Byte)) → ¬ isNaN x →
      ∃ p : Byte × Byte,
        some p = (if c.variant = .a then encodeA s.params.encTop c.ext x else encodeB s.params.encTop c.res x) ∧
        (s.nextDraw.outcome = .busError →
          exec (.scWriteThreshold ch which x) s =
            .next ((s.exchangeFailed [.writeBytes c.addr [ptr, p.1, p.2]]).respond [1])) ∧
        (s.nextDraw.outcome ≠ .busError →
          exec (.scWriteThreshold ch which x) s =
            .next ((s.exchanged [.writeBytes c.addr [ptr, p.1, p.2]] []).respond [0, p.1, p.2]))

/-! ## U2: expander -/

/-- 40_expander.md R132 with R130, and R133 with R131: XM.WRITE and XM.READ, whatever `XM_PRESENT` says. A write
that succeeds is noted in the shadow or the cache of its register. -/
def Obligations.RawRegisterResults : Prop :=
  ∀ (reg v : Byte) (s : State),
    (0x15 < reg.toNat →
      exec (.xmWrite reg v) s = .next (s.respond [2]) ∧ exec (.xmRead reg) s = .next (s.respond [2])) ∧
    (reg.toNat ≤ 0x15 → s.nextDraw.outcome = .busError →
      exec (.xmWrite reg v) s = .next ((s.exchangeFailed [.writeBytes 0x20 [reg, v]]).respond [1]) ∧
      exec (.xmRead reg) s = .next ((s.exchangeFailed (readOps reg)).respond [1])) ∧
    (reg.toNat ≤ 0x15 → s.nextDraw.outcome ≠ .busError →
      exec (.xmWrite reg v) s = .next (({ s.exchanged [.writeBytes 0x20 [reg, v]] [] with
        shadow :=
          { iodira := if reg = 0x00 then v else s.shadow.iodira
            iodirb := if reg = 0x01 then v else s.shadow.iodirb
            ipola := if reg = 0x02 then v else s.shadow.ipola
            ipolb := if reg = 0x03 then v else s.shadow.ipolb
            gpintena := if reg = 0x04 then v else s.shadow.gpintena
            gpintenb := if reg = 0x05 then v else s.shadow.gpintenb
            gppua := if reg = 0x0C then v else s.shadow.gppua
            gppub := if reg = 0x0D then v else s.shadow.gppub }
        cacheB := if reg = 0x13 ∨ reg = 0x15 then v else s.cacheB
        cacheA := if reg = 0x12 ∨ reg = 0x14 then v else s.cacheA } : State).respond [0]) ∧
      exec (.xmRead reg) s = .next ((s.exchanged (readOps reg) [[(drawData s.nextDraw).headD 0]]).respond
        [0, (drawData s.nextDraw).headD 0]))

/-- 40_expander.md R136: the six writes of XM.INIT; a failure of write number `k` ends it there. -/
def Obligations.XmInitResult : Prop :=
  ∀ s : State,
    let writes : List (Byte × Byte) :=
      [(0x00, 0x3F), (0x01, 0x00), (0x02, 0x3F), (0x0C, 0x3F), (0x04, 0x1F), (0x08, 0x00)]
    let done (k : Nat) (t : State) (present : Bool) (failed : List BusRecord) : State :=
      { t with
        trace := s.trace ++ (writes.take k).map (fun w => wroteRecord w.1 w.2) ++ failed
        xmPresent := present
        shadow :=
          { s.shadow with
            iodira := if 0 < k then 0x3F else s.shadow.iodira
            iodirb := if 1 < k then 0x00 else s.shadow.iodirb
            ipola := if 2 < k then 0x3F else s.shadow.ipola
            gppua := if 3 < k then 0x3F else s.shadow.gppua
            gpintena := if 4 < k then 0x1F else s.shadow.gpintena } }
    (s.busOk 6 = true → exec .xmInit s = .next ((done 6 (s.elapsed 6) true []).respond [0])) ∧
    ∀ k < 6, s.busOk k = true → (s.drawAt k).outcome = .busError →
      exec .xmInit s = .next ((done k (s.elapsed (k + 1)) false
        [failedRecord (writes.getD k (0, 0)).1 (writes.getD k (0, 0)).2]).respond [3])

/-- 40_expander.md R135, R137, R138 and R139: XM.WRITE_B, XM.SET_RED, XM.SET_GREEN and XM.SET_BACKLIGHT write one
bank through its cache, or do nothing without an expander. -/
def Obligations.BankOutputResults : Prop :=
  ∀ (v : Byte) (on : Bool) (s : State),
    let red : Byte := (s.cacheB &&& ~~~0x01 &&& 0xFF) ||| (if on then 0x01 else 0)
    let green : Byte := (s.cacheA &&& 0x7F) ||| (if on then 0x80 else 0)
    let light : Byte := if on then s.cacheA &&& 0xBF else s.cacheA ||| 0x40
    (s.xmPresent = false →
      exec (.xmWriteB v) s = .next (s.respond [0]) ∧
      exec (.xmSetRed (boolByte on)) s = .next (s.respond [0]) ∧
      exec (.xmSetGreen (boolByte on)) s = .next (s.respond [0]) ∧
      exec (.xmSetBacklight (boolByte on)) s = .next (s.respond [0])) ∧
    (s.xmPresent = true → s.nextDraw.outcome ≠ .busError →
      exec (.xmWriteB v) s = .next ((s.writtenB v).respond [0]) ∧
      exec (.xmSetRed (boolByte on)) s = .next ((s.writtenB red).respond [0]) ∧
      exec (.xmSetGreen (boolByte on)) s = .next ((s.writtenA green).respond [0]) ∧
      exec (.xmSetBacklight (boolByte on)) s = .next ((s.writtenA light).respond [0])) ∧
    (s.xmPresent = true → s.nextDraw.outcome = .busError →
      exec (.xmWriteB v) s = .next ((s.exchangeFailed [.writeBytes 0x20 [0x13, v]]).respond [1]) ∧
      exec (.xmSetRed (boolByte on)) s = .next ((s.exchangeFailed [.writeBytes 0x20 [0x13, red]]).respond [1]) ∧
      exec (.xmSetGreen (boolByte on)) s =
        .next ((s.exchangeFailed [.writeBytes 0x20 [0x12, green]]).respond [1]) ∧
      exec (.xmSetBacklight (boolByte on)) s =
        .next ((s.exchangeFailed [.writeBytes 0x20 [0x12, light]]).respond [1]))

/-- 40_expander.md R140, R141 and R142: XM.ACK_INT reads INTCAPA, XM.READ_BUTTONS reads GPIOA and keeps its six
button bits, a failed read being no zero mask, and XM.TEST_BUTTON is a pure bit test. -/
def Obligations.ButtonRequestResults : Prop :=
  ∀ s : State,
    (s.xmPresent = false →
      exec .xmAckInt s = .next (s.respond [3]) ∧ exec .xmReadButtons s = .next (s.respond [3])) ∧
    (s.xmPresent = true → s.nextDraw.outcome = .busError →
      exec .xmAckInt s = .next ((s.exchangeFailed (readOps 0x10)).respond [1]) ∧
      exec .xmReadButtons s = .next ((s.exchangeFailed (readOps 0x12)).respond [1])) ∧
    (s.xmPresent = true → s.nextDraw.outcome ≠ .busError →
      let v := (drawData s.nextDraw).headD 0
      exec .xmAckInt s = .next ((s.exchanged (readOps 0x10) [[v]]).respond [0, v]) ∧
      exec .xmReadButtons s = .next ((s.exchanged (readOps 0x12) [[v]]).respond [0, v &&& 0x3F])) ∧
    ∀ mask id : Byte,
      (5 < id.toNat → exec (.xmTestButton mask id) s = .next (s.respond [2])) ∧
      (id.toNat ≤ 5 →
        exec (.xmTestButton mask id) s = .next (s.respond [0, boolByte (mask.getLsbD id.toNat)]))

/-- 40_expander.md R143: without an expander the bank outputs do nothing, the two reads of the buttons answer
HardwareAbsent, and the four other requests do not look at `XM_PRESENT`. -/
def Obligations.AbsentExpander : Prop :=
  ∀ s : State,
    (s.xmPresent = false →
      (∀ v, exec (.xmWriteB v) s = .next (s.respond [0])) ∧
      (∀ on, exec (.xmSetRed (boolByte on)) s = .next (s.respond [0])) ∧
      (∀ on, exec (.xmSetGreen (boolByte on)) s = .next (s.respond [0])) ∧
      (∀ on, exec (.xmSetBacklight (boolByte on)) s = .next (s.respond [0])) ∧
      exec .xmAckInt s = .next (s.respond [3]) ∧ exec .xmReadButtons s = .next (s.respond [3])) ∧
    ∀ present : Bool,
      exec .xmInit { s with xmPresent := present } = exec .xmInit s ∧
      ∀ (a b : Byte) (i : Instr), i = .xmWrite a b ∨ i = .xmRead a ∨ i = .xmTestButton a b →
        ∀ t, exec i s = .next t →
          exec i { s with xmPresent := present } = .next { t with xmPresent := present }

/-! ## U3: display -/

/-- 41_lcd.md R174: without a display every U3 request but LCD.INIT answers OK and does nothing, whatever its
operands; a `bool` operand's byte is checked before (the model's reading of 60_exceptions.md R316, log 8). -/
def Obligations.AbsentDisplay : Prop :=
  ∀ (i : Instr) (s : State), s.lcdPresent = false → isLcd i → i ≠ .lcdInit → ¬ configurationCause i s →
    exec i s = .next (s.respond [0])

/-- 41_lcd.md R170, R171 and R173: LCD.SEND and LCD.DATA send one byte in four writes, high nibble first, with no
settle delay; the first write that fails ends them with status 1; without a display they do nothing. -/
def Obligations.SendResults : Prop :=
  ∀ (b : Byte) (rs : Bool) (s : State),
    (s.lcdPresent = false → exec (.lcdSend b (boolByte rs)) s = .next (s.respond [0]) ∧
      exec (.lcdData b) s = .next (s.respond [0])) ∧
    (s.lcdPresent = true →
      (s.busOk 4 = true → exec (.lcdSend b (boolByte rs)) s =
        .next ((s.wroteB (sendBytes b rs s.cacheB)).respond [0])) ∧
      (∀ k < 4, s.busOk k = true → (s.drawAt k).outcome = .busError → exec (.lcdSend b (boolByte rs)) s =
        .next ((s.failedB ((sendBytes b rs s.cacheB).take k) ((sendBytes b rs s.cacheB).getD k 0)).respond [1])) ∧
      sends (exec (.lcdData b) s) [plainOf b true] s)

/-- 41_lcd.md R172, R177, R178, R185 and R186: LCD.COMMAND, and the four requests that are one fixed command. The
settle delay follows 0x01, 0x02 and 0x03. -/
def Obligations.CommandResults : Prop :=
  ∀ (b : Byte) (s : State),
    (s.lcdPresent = false →
      exec (.lcdCommand b) s = .next (s.respond [0]) ∧ exec .lcdClear s = .next (s.respond [0]) ∧
      exec .lcdHome s = .next (s.respond [0]) ∧ exec .lcdScrollLeft s = .next (s.respond [0]) ∧
      exec .lcdScrollRight s = .next (s.respond [0])) ∧
    (s.lcdPresent = true →
      (s.busOk 4 = true → exec (.lcdCommand b) s = .next ((if b = 0x01 ∨ b = 0x02 ∨ b = 0x03 then
        (s.wroteB (sendBytes b false s.cacheB)).settle else s.wroteB (sendBytes b false s.cacheB)).respond [0])) ∧
      (∀ k < 4, s.busOk k = true → (s.drawAt k).outcome = .busError → exec (.lcdCommand b) s =
        .next ((s.failedB ((sendBytes b false s.cacheB).take k)
          ((sendBytes b false s.cacheB).getD k 0)).respond [1])) ∧
      sends (exec .lcdClear s) [commandOf 0x01] s ∧
      sends (exec .lcdHome s) [commandOf 0x02] s ∧
      sends (exec .lcdScrollLeft s) [commandOf 0x18] s ∧
      sends (exec .lcdScrollRight s) [commandOf 0x1C] s)

/-- The settle delay of 20_memory.md R64 (log 15): at least 15 ms pass, nothing is sent, and everything LOOP owns
stays as it is. -/
def Obligations.SettleDelay : Prop :=
  ∀ s : State,
    s.now + 15 ≤ s.settle.now ∧
    s.settle = { s with
      now := s.settle.now, wake := s.settle.wake, stop := s.settle.stop, irqPend := s.settle.irqPend,
      intPrev := s.settle.intPrev, hostPort := s.settle.hostPort, reqPort := s.settle.reqPort,
      responses := s.settle.responses, env := s.settle.env, drawn := s.settle.drawn }

/-- 41_lcd.md R191 and R179 to R184: each setter changes its one bit of its field, then sends the whole field; the
field keeps its new value when a write fails; without a display nothing happens. -/
def Obligations.SetterResults : Prop :=
  ∀ (on : Bool) (s : State),
    let dctrl (d : BitVec 3) (i : Instr) : Prop :=
      (s.lcdPresent = false → exec i s = .next (s.respond [0])) ∧
      (s.lcdPresent = true → sends (exec i s) [commandOf (0x08 ||| d.setWidth 8)] { s with dctrl := d })
    let entry (e : BitVec 2) (i : Instr) : Prop :=
      (s.lcdPresent = false → exec i s = .next (s.respond [0])) ∧
      (s.lcdPresent = true → sends (exec i s) [commandOf (0x04 ||| e.setWidth 8)] { s with entry := e })
    dctrl (if on then s.dctrl ||| 0b100 else s.dctrl &&& ~~~0b100) (.lcdSetDisplay (boolByte on)) ∧
    dctrl (if on then s.dctrl ||| 0b010 else s.dctrl &&& ~~~0b010) (.lcdSetCursor (boolByte on)) ∧
    dctrl (if on then s.dctrl ||| 0b001 else s.dctrl &&& ~~~0b001) (.lcdSetBlink (boolByte on)) ∧
    entry (s.entry ||| 0b10) .lcdLeftToRight ∧
    entry (s.entry &&& ~~~0b10) .lcdRightToLeft ∧
    entry (if on then s.entry ||| 0b01 else s.entry &&& ~~~0b01) (.lcdSetAutoscroll (boolByte on))

/-- 41_lcd.md R176: LCD.RESET sets both fields, then sends 0x0C, 0x06, clear and home. -/
def Obligations.LcdResetResult : Prop :=
  ∀ s : State,
    (s.lcdPresent = false → exec .lcdReset s = .next (s.respond [0])) ∧
    (s.lcdPresent = true →
      sends (exec .lcdReset s) [commandOf 0x0C, commandOf 0x06, commandOf 0x01, commandOf 0x02]
        { s with entry := 0b10, dctrl := 0b100 })

/-- 41_lcd.md R175: LCD.INIT sends 0x33, 0x32 and 0x28, marks the display present and does LCD.RESET; without an
expander, or at the first write that fails, the display is absent and the status is HardwareAbsent. -/
def Obligations.LcdInitResult : Prop :=
  ∀ s : State,
    (s.xmPresent = false → exec .lcdInit s = .next (({ s with lcdPresent := false } : State).respond [3])) ∧
    (s.xmPresent = true →
      let bad (t : State) : Prop := exec .lcdInit s = .next (({ t with lcdPresent := false } : State).respond [3])
      sendsThen bad [plainOf 0x33 false, plainOf 0x32 false, plainOf 0x28 false]
        (fun t => sendsThen bad [commandOf 0x0C, commandOf 0x06, commandOf 0x01, commandOf 0x02]
          (fun u => exec .lcdInit s = .next (u.respond [0]))
          { t with lcdPresent := true, entry := 0b10, dctrl := 0b100 })
        { s with lcdPresent := false })

/-- 41_lcd.md R187 and R188: a row below 0 is row 0 and a row above 2 is row 1; LCD.SET_POS sends the address
with the SET_DDRAM bit, or refuses a negative column and an address above 0x7F with status 2. -/
def Obligations.SetPosResult : Prop :=
  ∀ (col row : Byte) (s : State),
    let offset : Int := if row.toInt < 0 then 0x00 else if row.toInt > 2 then 0x40
      else if row.toInt = 0 then 0x00 else if row.toInt = 1 then 0x40 else 0x14
    let a : Int := col.toInt + offset
    (s.lcdPresent = false → exec (.lcdSetPos col row) s = .next (s.respond [0])) ∧
    (s.lcdPresent = true → col.toInt < 0 ∨ 0x7F < a → exec (.lcdSetPos col row) s = .next (s.respond [2])) ∧
    (s.lcdPresent = true → 0 ≤ col.toInt → a ≤ 0x7F →
      sends (exec (.lcdSetPos col row) s) [commandOf (BitVec.ofInt 8 (0x80 + a))] s)

/-- 41_lcd.md R189: LCD.MESSAGE sends its bytes as data, a line break as the command 0xC0. -/
def Obligations.MessageResult : Prop :=
  ∀ (text : List Byte) (s : State),
    (s.lcdPresent = false → exec (.lcdMessage text) s = .next (s.respond [0])) ∧
    (s.lcdPresent = true → sends (exec (.lcdMessage text) s) (textOf text) s)

/-- 41_lcd.md R190: LCD.CREATE_CHAR sends the slot's CGRAM address, then the glyph's rows as data. -/
def Obligations.CreateCharResult : Prop :=
  ∀ (slot : Byte) (bitmap : List Byte) (s : State),
    (s.lcdPresent = false → exec (.lcdCreateChar slot bitmap) s = .next (s.respond [0])) ∧
    (s.lcdPresent = true → 7 < slot.toNat ∨ 8 < bitmap.length →
      exec (.lcdCreateChar slot bitmap) s = .next (s.respond [2])) ∧
    (s.lcdPresent = true → slot.toNat ≤ 7 → bitmap.length ≤ 8 →
      sends (exec (.lcdCreateChar slot bitmap) s)
        (commandOf (BitVec.ofNat 8 (0x40 + 8 * slot.toNat)) :: bitmap.map (plainOf · true)) s)

/-! ## U4: scheduler -/

/-- 43_scheduler.md R261: SCHED.START in phase Reset, every device answering. The six writes of XM.INIT, the 28
of LCD.INIT with its two settle delays, the two probes, then publish and arm. -/
def Obligations.StartBringsUpEverything : Prop :=
  ∀ s : State, s.phase = .reset → s.busOk 38 = true →
    let r0 := sensedReading s.ch0 (s.drawAt 36)
    let r1 := sensedReading s.ch1 (s.drawAt 37)
    let e := ((((s.elapsed 30).settle).elapsed 4).settle).elapsed 2
    exec .schedStart s = .next (({ e with
      trace := s.trace ++
        [wroteRecord 0x00 0x3F, wroteRecord 0x01 0x00, wroteRecord 0x02 0x3F, wroteRecord 0x0C 0x3F,
         wroteRecord 0x04 0x1F, wroteRecord 0x08 0x00] ++
        ([0x33, 0x32, 0x28, 0x0C, 0x06, 0x01, 0x02].flatMap (sendBytes · false s.cacheB)).map
          (wroteRecord 0x13) ++
        [{ ops := pollOps s.ch0, outcome := some [[(sensedPair (s.drawAt 36)).1, (sensedPair (s.drawAt 36)).2]] },
         { ops := pollOps s.ch1, outcome := some [[(sensedPair (s.drawAt 37)).1, (sensedPair (s.drawAt 37)).2]] }]
      shadow := { s.shadow with iodira := 0x3F, iodirb := 0x00, ipola := 0x3F, gppua := 0x3F, gpintena := 0x1F }
      xmPresent := true, lcdPresent := true, entry := 0b10, dctrl := 0b100
      cacheB := 0x08 ||| (s.cacheB &&& 0x01)
      temp0 := some r0.value, temp1 := some r1.value, ts := some e.now
      pub := { temp0 := some r0.value, temp1 := some r1.value, ts := some e.now }
      dispDl := e.now, logDl := e.now + s.params.logPeriod, phase := .running } : State).respond [0])

/-- 43_scheduler.md R261, for every outcome: an absent expander or display gets a `DIAG` record and does not
stop start-up, the display is not tried without the expander, and a sensor that does not answer its probe is
fatal. Outside phase Reset the request is refused with status 2. -/
def Obligations.StartResult : Prop :=
  (∀ s : State, s.phase ≠ .reset → exec .schedStart s = .next (s.respond [2])) ∧
  ∀ s e d : State, s.phase = .reset → triedAtStart .xmInit .expander s e →
    (if e.xmPresent = true then triedAtStart .lcdInit .display e d else d = e) →
    (d.nextDraw.outcome = .busError →
      exec .schedStart s = .next ((d.probeFailed d.ch0 .sensor0).respond [3])) ∧
    (d.nextDraw.outcome ≠ .busError →
      let p : State := { d.sensed d.ch0 d.nextDraw with temp0 := some (sensedReading d.ch0 d.nextDraw).value }
      (p.nextDraw.outcome = .busError →
        exec .schedStart s = .next ((p.probeFailed p.ch1 .sensor1).respond [3])) ∧
      (p.nextDraw.outcome ≠ .busError →
        exec .schedStart s = .next ((State.armed { p.sensed p.ch1 p.nextDraw with
          temp1 := some (sensedReading p.ch1 p.nextDraw).value }).respond [0])))

/-- 43_scheduler.md R275: SCHED.RESTART_DISPLAY makes the display timer due now; the next wait then answers
DisplayTick unless a stop or a log tick comes first, and the grid restarts from this `NOW`. -/
def Obligations.RestartDisplayResult : Prop :=
  ∀ s : State,
    (s.phase ≠ .running → exec .schedRestartDisplay s = .next (s.respond [2])) ∧
    (s.phase = .running →
      let t := ({ s with dispDl := s.now } : State).respond [0]
      exec .schedRestartDisplay s = .next t ∧
      (s.stop = false → s.now < s.logDl → exec .schedWait t = .next
        (({ t with waitStart := s.now, dispDl := gridAfter s.now s.params.displayPeriod s.now } : State).answered 1)))

/-- 43_scheduler.md R264 and R265, for SCHED.WAIT (R263): it notes its start and consumes the first ready source of
the fixed order, with its drain, in one step; a stop comes before them all, and a timeout after. The last clause is
about a blocked wait: that it is evaluated once in a step, after the environment acted, is the model's choice
(log 6). -/
def Obligations.WaitResult : Prop :=
  ∀ s : State,
    (s.phase ≠ .running → exec .schedWait s = .next (s.respond [2])) ∧
    (s.phase = .running →
      let w : State := { s with waitStart := s.now }
      (s.stop = true → exec .schedWait s = .next (w.answered 5)) ∧
      (s.stop = false → s.logDl ≤ s.now → exec .schedWait s =
        .next (({ w with logDl := gridAfter s.logDl s.params.logPeriod s.now } : State).answered 0)) ∧
      (s.stop = false → s.now < s.logDl → s.dispDl ≤ s.now → exec .schedWait s =
        .next (({ w with dispDl := gridAfter s.dispDl s.params.displayPeriod s.now } : State).answered 1)) ∧
      (s.stop = false → s.now < s.logDl → s.now < s.dispDl → s.irqPend = true → exec .schedWait s =
        .next (({ w with irqPend := false } : State).answered 2)) ∧
      (s.stop = false → s.now < s.logDl → s.now < s.dispDl → s.irqPend = false → s.wake = true →
        exec .schedWait s = .next (({ w with wake := false } : State).answered 3))) ∧
    (s.blockedIn .wait →
      let w := s.waitResumed
      w.stop = false → w.now < w.logDl → w.now < w.dispDl → w.irqPend = false → w.wake = false →
        w.waitStart + w.params.waitTimeout ≤ w.now → step s = .next (w.answered 4))

/-- 43_scheduler.md R266: a consumed timer moves to the first grid point after `NOW`, and nothing else changes. -/
def Obligations.TimerAdvance : Prop :=
  ∀ s : State,
    (s.logDl ≤ s.now → 0 < s.params.logPeriod →
      let t := drain .logTick s
      t.logDl = s.logDl + s.params.logPeriod * ((s.now - s.logDl) / s.params.logPeriod + 1) ∧
        s.now < t.logDl ∧ t.logDl ≤ s.now + s.params.logPeriod ∧ s.params.logPeriod ∣ t.logDl - s.logDl ∧
        t = { s with logDl := t.logDl }) ∧
    (s.dispDl ≤ s.now → 0 < s.params.displayPeriod →
      let t := drain .displayTick s
      t.dispDl = s.dispDl + s.params.displayPeriod * ((s.now - s.dispDl) / s.params.displayPeriod + 1) ∧
        s.now < t.dispDl ∧ t.dispDl ≤ s.now + s.params.displayPeriod ∧
        s.params.displayPeriod ∣ t.dispDl - s.dispDl ∧ t = { s with dispDl := t.dispDl })

/-- 43_scheduler.md R268: the three stop checks of an iteration. A stop request found at the first one, at an
evaluation of the wait condition, or after the wait ends it in phase Stopped, with no transaction. Where a stop
request can come between two checks is the model's (log 4). -/
def Obligations.IterateStops : Prop :=
  ∀ s : State,
    (s.phase = .running → s.stop = true →
      exec .schedIterate s = .next (({ s with phase := .stopped } : State).answered 5)) ∧
    ∀ code b, code = 5 ∨ b.interlude.stop = true →
      (s.phase = .running → s.stop = false → waitOutcome s.waitStarted = some (code, b) →
        exec .schedIterate s = .next (({ b.interlude with phase := .stopped } : State).answered 5)) ∧
      (s.blockedIn .iterate → waitOutcome s.waitResumed = some (code, b) →
        step s = .next (({ b.interlude with phase := .stopped } : State).answered 5))

/-- 43_scheduler.md R267, R269, R270 and R271: an iteration that consumes a log tick, a wake request or a timeout
reads both sensors, publishes, and, on a log tick, emits one log record. -/
def Obligations.IterateReadsAndLogs : Prop :=
  ∀ s c : State,
    iterates s 0 c (State.answered 0 { c.sensorsRead with
      log := c.log ++ [{ time := c.sensorsRead.now, temp0 := c.sensorsRead.temp0,
                         temp1 := c.sensorsRead.temp1 }] }) ∧
    iterates s 3 c (c.sensorsRead.answered 3) ∧
    iterates s 4 c (c.sensorsRead.answered 4)

/-- 43_scheduler.md R272: the display action clears the display and writes the rendered text; a failed write gets
one `DIAG` record and ends it; an absent display does nothing. -/
def Obligations.DisplayActionResult : Prop :=
  ∀ s c : State,
    let d := c.sensorsRead
    (d.lcdPresent = false → iterates s 1 c (d.answered 1)) ∧
    (d.lcdPresent = true →
      sendsThen
        (fun t => iterates s 1 c (State.answered 1 { t with
          diag := t.diag ++ [{ time := t.now, status := .bus, origin := .display }] }))
        (commandOf 0x01 :: textOf (Config.render d.fmt d.temp0 d.temp1))
        (fun t => iterates s 1 c (t.answered 1)) d)

/-- 43_scheduler.md R273 and R274: the button action acknowledges first, then reads the mask; a release changes
nothing; the first pressed of SELECT, UP, DOWN, LEFT and RIGHT selects its format and restarts the display timer;
the reserved bit alone shows the unknown-button text. -/
def Obligations.ButtonActionResult : Prop :=
  ∀ s c : State,
    let d := c.sensorsRead
    let failed (t : State) : State :=
      { t with diag := t.diag ++ [{ time := t.now, status := .bus, origin := .buttons }] }
    (d.xmPresent = false → iterates s 2 c (d.answered 2)) ∧
    (d.xmPresent = true → d.nextDraw.outcome = .busError →
      iterates s 2 c ((failed (d.exchangeFailed (readOps 0x10))).answered 2)) ∧
    (d.xmPresent = true → d.nextDraw.outcome ≠ .busError →
      let a := d.exchanged (readOps 0x10) [[(drawData d.nextDraw).headD 0]]
      (a.nextDraw.outcome = .busError →
        iterates s 2 c ((failed (a.exchangeFailed (readOps 0x12))).answered 2)) ∧
      (a.nextDraw.outcome ≠ .busError →
        let byte := (drawData a.nextDraw).headD 0
        let q := a.exchanged (readOps 0x12) [[byte]]
        let select (f : DisplayFormat) : State := { q with fmt := f, dispDl := q.now }
        (byte &&& 0x3F = 0 → iterates s 2 c (q.answered 2)) ∧
        (byte.getLsbD 0 = true → iterates s 2 c ((select .combined).answered 2)) ∧
        (byte &&& 0x09 = 0x08 → iterates s 2 c ((select .inside).answered 2)) ∧
        (byte &&& 0x0D = 0x04 → iterates s 2 c ((select .outside).answered 2)) ∧
        (byte &&& 0x1D = 0x10 → iterates s 2 c ((select .celsius).answered 2)) ∧
        (byte &&& 0x1F = 0x02 → iterates s 2 c ((select .fahrenheit).answered 2)) ∧
        (byte &&& 0x3F = 0x20 → q.lcdPresent = false → iterates s 2 c (q.answered 2)) ∧
        (byte &&& 0x3F = 0x20 → q.lcdPresent = true →
          sendsThen
            (fun t => iterates s 2 c (State.answered 2 { t with
              diag := t.diag ++ [{ time := t.now, status := .bus, origin := .display }] }))
            (commandOf 0x01 :: textOf s.params.unknownText)
            (fun t => iterates s 2 c (t.answered 2)) q)))

/-- 43_scheduler.md R279: SCHED.RUN starts up from phase Reset, then does what SCHED.ITERATE does, again and
again without a response, and answers OK when the phase is no longer Running. A pass ends the step, also the
start-up, and a pass that blocks goes on in later steps, as a blocked SCHED.ITERATE does: what one step holds is
the model's choice (log 6). -/
def Obligations.RunResult : Prop :=
  ∀ s : State,
    let passed (t : State) : State :=
      if t.phase = .running then { t with loop := .running } else ({ t with loop := .idle } : State).respond [0]
    (s.phase = .stopped ∨ s.phase = .fatal → exec .schedRun s = .next (s.respond [2])) ∧
    (s.phase = .reset →
      (∀ t : State, exec .schedStart s = .next (t.respond [3]) → exec .schedRun s = .next (t.respond [3])) ∧
      (∀ t : State, exec .schedStart s = .next (t.respond [0]) →
        exec .schedRun s = .next { t with loop := .running })) ∧
    (s.phase = .running →
      (s.stop = true →
        exec .schedRun s = .next (({ s with phase := .stopped, loop := .idle } : State).respond [0])) ∧
      (∀ (t : State) (code : Byte), exec .schedIterate s = .next (t.answered code) →
        exec .schedRun s = .next (passed t)) ∧
      (s.stop = false → waitOutcome s.waitStarted = none →
        exec .schedRun s = .next { s.waitStarted with loop := .waiting .run })) ∧
    (s.blockedIn .run →
      (waitOutcome s.waitResumed = none → step s = .next s.waitResumed) ∧
      ∀ p, waitOutcome s.waitResumed = some p →
        ∃ (t : State) (code : Byte), step { s with loop := .waiting .iterate } = .next (t.answered code) ∧
          step s = .next (passed t))
end

