-- ==== Sys2Proof/Laws/Decode.lean ====
section
/-! SUPPORT. What the decoder's helpers do, once each. -/

namespace Sys2Proof

/-- The eight bytes of a value make the value again. -/
theorem ofBe64_be64 (x : BitVec 64) :
    ofBe64 (x.extractLsb' 56 8) (x.extractLsb' 48 8) (x.extractLsb' 40 8) (x.extractLsb' 32 8)
      (x.extractLsb' 24 8) (x.extractLsb' 16 8) (x.extractLsb' 8 8) (x.extractLsb' 0 8) = x := by
  simp only [ofBe64]
  ext i hi
  simp only [BitVec.getElem_append, BitVec.getElem_extractLsb']
  repeat' split
  all_goals (rw [← BitVec.getLsbD_eq_getElem]; congr 1; omega)

/-- Taking as many bytes as there are before the rest. -/
theorem splitBytes_append (bs rest : List Byte) : splitBytes bs.length (bs ++ rest) = some (bs, rest) := by
  induction bs with
  | nil => rfl
  | cons b bs ih => simp only [List.length_cons, List.cons_append, splitBytes, ih]

/-- Everything `splitBytes` can answer. -/
theorem splitBytes_eq_some {n : Nat} {r bs rest : List Byte} (h : splitBytes n r = some (bs, rest)) :
    bs.length = n ∧ r = bs ++ rest := by
  induction n generalizing r bs with
  | zero =>
    simp only [splitBytes, Option.some.injEq, Prod.mk.injEq] at h
    obtain ⟨rfl, rfl⟩ := h
    exact ⟨rfl, rfl⟩
  | succ n ih =>
    cases r with
    | nil => cases h
    | cons b r =>
      simp only [splitBytes] at h
      split at h
      · rename_i bs' rest' hs
        cases h
        obtain ⟨h1, h2⟩ := ih hs
        exact ⟨by simp [h1], by simp [h2]⟩
      · cases h

theorem splitBytes_eq_none {n : Nat} {r : List Byte} (h : splitBytes n r = none) : r.length < n := by
  induction n generalizing r with
  | zero => cases h
  | succ n ih =>
    cases r with
    | nil => simp
    | cons b r =>
      simp only [splitBytes] at h
      split at h
      · cases h
      · rename_i hs
        have := ih hs
        simp only [List.length_cons]
        omega

/-- The length byte of a byte string that fits it. -/
theorem lengthByte (bs : List Byte) (h : fitsLengthByte bs = true) :
    (BitVec.ofNat 8 bs.length).toNat = bs.length := by
  simp only [fitsLengthByte, decide_eq_true_eq] at h
  simp only [BitVec.toNat_ofNat]
  omega

/-- A byte string operand is read back. -/
theorem takeBytes_encodeBytes (op : Byte) (k : List Byte → Instr) (bs rest : List Byte)
    (h : fitsLengthByte bs = true) : takeBytes op k (encodeBytes bs ++ rest) = .ok (k bs, rest) := by
  simp only [encodeBytes, List.cons_append, takeBytes, lengthByte bs h, splitBytes_append]

/-- An `f64` operand is read back. -/
theorem takeF64_be64 (op : Byte) (k : F64 → List Byte → Decoded) (x : F64) (rest : List Byte) :
    takeF64 op k (be64 x ++ rest) = k x rest := by
  simp only [be64, List.cons_append, List.nil_append, takeF64, ofBe64_be64]

end Sys2Proof
end

