-- ==== Sys2Proof/Laws/State.lean ====
section
/-! SUPPORT. What each named update of the state does to each field. -/

namespace Sys2Proof.Machine

variable (s : State)

/-! ### `State.respond` -/

@[simp] theorem respond_ch0 (b : List Byte) : (State.respond b s).ch0 = s.ch0 := rfl
@[simp] theorem respond_ch1 (b : List Byte) : (State.respond b s).ch1 = s.ch1 := rfl
@[simp] theorem respond_shadow (b : List Byte) : (State.respond b s).shadow = s.shadow := rfl
@[simp] theorem respond_cacheB (b : List Byte) : (State.respond b s).cacheB = s.cacheB := rfl
@[simp] theorem respond_cacheA (b : List Byte) : (State.respond b s).cacheA = s.cacheA := rfl
@[simp] theorem respond_xmPresent (b : List Byte) : (State.respond b s).xmPresent = s.xmPresent := rfl
@[simp] theorem respond_entry (b : List Byte) : (State.respond b s).entry = s.entry := rfl
@[simp] theorem respond_dctrl (b : List Byte) : (State.respond b s).dctrl = s.dctrl := rfl
@[simp] theorem respond_lcdPresent (b : List Byte) : (State.respond b s).lcdPresent = s.lcdPresent := rfl
@[simp] theorem respond_now (b : List Byte) : (State.respond b s).now = s.now := rfl
@[simp] theorem respond_logDl (b : List Byte) : (State.respond b s).logDl = s.logDl := rfl
@[simp] theorem respond_dispDl (b : List Byte) : (State.respond b s).dispDl = s.dispDl := rfl
@[simp] theorem respond_waitStart (b : List Byte) : (State.respond b s).waitStart = s.waitStart := rfl
@[simp] theorem respond_wake (b : List Byte) : (State.respond b s).wake = s.wake := rfl
@[simp] theorem respond_stop (b : List Byte) : (State.respond b s).stop = s.stop := rfl
@[simp] theorem respond_irqPend (b : List Byte) : (State.respond b s).irqPend = s.irqPend := rfl
@[simp] theorem respond_intPrev (b : List Byte) : (State.respond b s).intPrev = s.intPrev := rfl
@[simp] theorem respond_phase (b : List Byte) : (State.respond b s).phase = s.phase := rfl
@[simp] theorem respond_fmt (b : List Byte) : (State.respond b s).fmt = s.fmt := rfl
@[simp] theorem respond_temp0 (b : List Byte) : (State.respond b s).temp0 = s.temp0 := rfl
@[simp] theorem respond_temp1 (b : List Byte) : (State.respond b s).temp1 = s.temp1 := rfl
@[simp] theorem respond_ts (b : List Byte) : (State.respond b s).ts = s.ts := rfl
@[simp] theorem respond_err (b : List Byte) : (State.respond b s).err = s.err := rfl
@[simp] theorem respond_pub (b : List Byte) : (State.respond b s).pub = s.pub := rfl
@[simp] theorem respond_log (b : List Byte) : (State.respond b s).log = s.log := rfl
@[simp] theorem respond_diag (b : List Byte) : (State.respond b s).diag = s.diag := rfl
@[simp] theorem respond_trace (b : List Byte) : (State.respond b s).trace = s.trace := rfl
@[simp] theorem respond_params (b : List Byte) : (State.respond b s).params = s.params := rfl
@[simp] theorem respond_loop (b : List Byte) : (State.respond b s).loop = s.loop := rfl
@[simp] theorem respond_gap (b : List Byte) : (State.respond b s).gap = s.gap := rfl
@[simp] theorem respond_agent (b : List Byte) : (State.respond b s).agent = s.agent := rfl
@[simp] theorem respond_hostPort (b : List Byte) : (State.respond b s).hostPort = s.hostPort := rfl
@[simp] theorem respond_reqPort (b : List Byte) : (State.respond b s).reqPort = s.reqPort := rfl
@[simp] theorem respond_responses (b : List Byte) : (State.respond b s).responses = s.responses ++ [(s.agent, b)] := rfl
@[simp] theorem respond_env (b : List Byte) : (State.respond b s).env = s.env := rfl
@[simp] theorem respond_drawn (b : List Byte) : (State.respond b s).drawn = s.drawn := rfl

/-! ### `State.emitDiag` -/

@[simp] theorem emitDiag_ch0 (e : Err) (o : Origin) : (State.emitDiag e o s).ch0 = s.ch0 := rfl
@[simp] theorem emitDiag_ch1 (e : Err) (o : Origin) : (State.emitDiag e o s).ch1 = s.ch1 := rfl
@[simp] theorem emitDiag_shadow (e : Err) (o : Origin) : (State.emitDiag e o s).shadow = s.shadow := rfl
@[simp] theorem emitDiag_cacheB (e : Err) (o : Origin) : (State.emitDiag e o s).cacheB = s.cacheB := rfl
@[simp] theorem emitDiag_cacheA (e : Err) (o : Origin) : (State.emitDiag e o s).cacheA = s.cacheA := rfl
@[simp] theorem emitDiag_xmPresent (e : Err) (o : Origin) : (State.emitDiag e o s).xmPresent = s.xmPresent := rfl
@[simp] theorem emitDiag_entry (e : Err) (o : Origin) : (State.emitDiag e o s).entry = s.entry := rfl
@[simp] theorem emitDiag_dctrl (e : Err) (o : Origin) : (State.emitDiag e o s).dctrl = s.dctrl := rfl
@[simp] theorem emitDiag_lcdPresent (e : Err) (o : Origin) : (State.emitDiag e o s).lcdPresent = s.lcdPresent := rfl
@[simp] theorem emitDiag_now (e : Err) (o : Origin) : (State.emitDiag e o s).now = s.now := rfl
@[simp] theorem emitDiag_logDl (e : Err) (o : Origin) : (State.emitDiag e o s).logDl = s.logDl := rfl
@[simp] theorem emitDiag_dispDl (e : Err) (o : Origin) : (State.emitDiag e o s).dispDl = s.dispDl := rfl
@[simp] theorem emitDiag_waitStart (e : Err) (o : Origin) : (State.emitDiag e o s).waitStart = s.waitStart := rfl
@[simp] theorem emitDiag_wake (e : Err) (o : Origin) : (State.emitDiag e o s).wake = s.wake := rfl
@[simp] theorem emitDiag_stop (e : Err) (o : Origin) : (State.emitDiag e o s).stop = s.stop := rfl
@[simp] theorem emitDiag_irqPend (e : Err) (o : Origin) : (State.emitDiag e o s).irqPend = s.irqPend := rfl
@[simp] theorem emitDiag_intPrev (e : Err) (o : Origin) : (State.emitDiag e o s).intPrev = s.intPrev := rfl
@[simp] theorem emitDiag_phase (e : Err) (o : Origin) : (State.emitDiag e o s).phase = s.phase := rfl
@[simp] theorem emitDiag_fmt (e : Err) (o : Origin) : (State.emitDiag e o s).fmt = s.fmt := rfl
@[simp] theorem emitDiag_temp0 (e : Err) (o : Origin) : (State.emitDiag e o s).temp0 = s.temp0 := rfl
@[simp] theorem emitDiag_temp1 (e : Err) (o : Origin) : (State.emitDiag e o s).temp1 = s.temp1 := rfl
@[simp] theorem emitDiag_ts (e : Err) (o : Origin) : (State.emitDiag e o s).ts = s.ts := rfl
@[simp] theorem emitDiag_err (e : Err) (o : Origin) : (State.emitDiag e o s).err = s.err := rfl
@[simp] theorem emitDiag_pub (e : Err) (o : Origin) : (State.emitDiag e o s).pub = s.pub := rfl
@[simp] theorem emitDiag_log (e : Err) (o : Origin) : (State.emitDiag e o s).log = s.log := rfl
@[simp] theorem emitDiag_diag (e : Err) (o : Origin) : (State.emitDiag e o s).diag = s.diag ++ [{ time := s.now, status := e, origin := o }] := rfl
@[simp] theorem emitDiag_trace (e : Err) (o : Origin) : (State.emitDiag e o s).trace = s.trace := rfl
@[simp] theorem emitDiag_params (e : Err) (o : Origin) : (State.emitDiag e o s).params = s.params := rfl
@[simp] theorem emitDiag_loop (e : Err) (o : Origin) : (State.emitDiag e o s).loop = s.loop := rfl
@[simp] theorem emitDiag_gap (e : Err) (o : Origin) : (State.emitDiag e o s).gap = s.gap := rfl
@[simp] theorem emitDiag_agent (e : Err) (o : Origin) : (State.emitDiag e o s).agent = s.agent := rfl
@[simp] theorem emitDiag_hostPort (e : Err) (o : Origin) : (State.emitDiag e o s).hostPort = s.hostPort := rfl
@[simp] theorem emitDiag_reqPort (e : Err) (o : Origin) : (State.emitDiag e o s).reqPort = s.reqPort := rfl
@[simp] theorem emitDiag_responses (e : Err) (o : Origin) : (State.emitDiag e o s).responses = s.responses := rfl
@[simp] theorem emitDiag_env (e : Err) (o : Origin) : (State.emitDiag e o s).env = s.env := rfl
@[simp] theorem emitDiag_drawn (e : Err) (o : Origin) : (State.emitDiag e o s).drawn = s.drawn := rfl

/-! ### `State.emitLog` -/

@[simp] theorem emitLog_ch0 : (State.emitLog s).ch0 = s.ch0 := rfl
@[simp] theorem emitLog_ch1 : (State.emitLog s).ch1 = s.ch1 := rfl
@[simp] theorem emitLog_shadow : (State.emitLog s).shadow = s.shadow := rfl
@[simp] theorem emitLog_cacheB : (State.emitLog s).cacheB = s.cacheB := rfl
@[simp] theorem emitLog_cacheA : (State.emitLog s).cacheA = s.cacheA := rfl
@[simp] theorem emitLog_xmPresent : (State.emitLog s).xmPresent = s.xmPresent := rfl
@[simp] theorem emitLog_entry : (State.emitLog s).entry = s.entry := rfl
@[simp] theorem emitLog_dctrl : (State.emitLog s).dctrl = s.dctrl := rfl
@[simp] theorem emitLog_lcdPresent : (State.emitLog s).lcdPresent = s.lcdPresent := rfl
@[simp] theorem emitLog_now : (State.emitLog s).now = s.now := rfl
@[simp] theorem emitLog_logDl : (State.emitLog s).logDl = s.logDl := rfl
@[simp] theorem emitLog_dispDl : (State.emitLog s).dispDl = s.dispDl := rfl
@[simp] theorem emitLog_waitStart : (State.emitLog s).waitStart = s.waitStart := rfl
@[simp] theorem emitLog_wake : (State.emitLog s).wake = s.wake := rfl
@[simp] theorem emitLog_stop : (State.emitLog s).stop = s.stop := rfl
@[simp] theorem emitLog_irqPend : (State.emitLog s).irqPend = s.irqPend := rfl
@[simp] theorem emitLog_intPrev : (State.emitLog s).intPrev = s.intPrev := rfl
@[simp] theorem emitLog_phase : (State.emitLog s).phase = s.phase := rfl
@[simp] theorem emitLog_fmt : (State.emitLog s).fmt = s.fmt := rfl
@[simp] theorem emitLog_temp0 : (State.emitLog s).temp0 = s.temp0 := rfl
@[simp] theorem emitLog_temp1 : (State.emitLog s).temp1 = s.temp1 := rfl
@[simp] theorem emitLog_ts : (State.emitLog s).ts = s.ts := rfl
@[simp] theorem emitLog_err : (State.emitLog s).err = s.err := rfl
@[simp] theorem emitLog_pub : (State.emitLog s).pub = s.pub := rfl
@[simp] theorem emitLog_log : (State.emitLog s).log = s.log ++ [{ time := s.now, temp0 := s.temp0, temp1 := s.temp1 }] := rfl
@[simp] theorem emitLog_diag : (State.emitLog s).diag = s.diag := rfl
@[simp] theorem emitLog_trace : (State.emitLog s).trace = s.trace := rfl
@[simp] theorem emitLog_params : (State.emitLog s).params = s.params := rfl
@[simp] theorem emitLog_loop : (State.emitLog s).loop = s.loop := rfl
@[simp] theorem emitLog_gap : (State.emitLog s).gap = s.gap := rfl
@[simp] theorem emitLog_agent : (State.emitLog s).agent = s.agent := rfl
@[simp] theorem emitLog_hostPort : (State.emitLog s).hostPort = s.hostPort := rfl
@[simp] theorem emitLog_reqPort : (State.emitLog s).reqPort = s.reqPort := rfl
@[simp] theorem emitLog_responses : (State.emitLog s).responses = s.responses := rfl
@[simp] theorem emitLog_env : (State.emitLog s).env = s.env := rfl
@[simp] theorem emitLog_drawn : (State.emitLog s).drawn = s.drawn := rfl

/-! ### `State.emitTrace` -/

@[simp] theorem emitTrace_ch0 (ops : List BusOp) (r : Option (List (List Byte))) : (State.emitTrace ops r s).ch0 = s.ch0 := rfl
@[simp] theorem emitTrace_ch1 (ops : List BusOp) (r : Option (List (List Byte))) : (State.emitTrace ops r s).ch1 = s.ch1 := rfl
@[simp] theorem emitTrace_shadow (ops : List BusOp) (r : Option (List (List Byte))) : (State.emitTrace ops r s).shadow = s.shadow := rfl
@[simp] theorem emitTrace_cacheB (ops : List BusOp) (r : Option (List (List Byte))) : (State.emitTrace ops r s).cacheB = s.cacheB := rfl
@[simp] theorem emitTrace_cacheA (ops : List BusOp) (r : Option (List (List Byte))) : (State.emitTrace ops r s).cacheA = s.cacheA := rfl
@[simp] theorem emitTrace_xmPresent (ops : List BusOp) (r : Option (List (List Byte))) : (State.emitTrace ops r s).xmPresent = s.xmPresent := rfl
@[simp] theorem emitTrace_entry (ops : List BusOp) (r : Option (List (List Byte))) : (State.emitTrace ops r s).entry = s.entry := rfl
@[simp] theorem emitTrace_dctrl (ops : List BusOp) (r : Option (List (List Byte))) : (State.emitTrace ops r s).dctrl = s.dctrl := rfl
@[simp] theorem emitTrace_lcdPresent (ops : List BusOp) (r : Option (List (List Byte))) : (State.emitTrace ops r s).lcdPresent = s.lcdPresent := rfl
@[simp] theorem emitTrace_now (ops : List BusOp) (r : Option (List (List Byte))) : (State.emitTrace ops r s).now = s.now := rfl
@[simp] theorem emitTrace_logDl (ops : List BusOp) (r : Option (List (List Byte))) : (State.emitTrace ops r s).logDl = s.logDl := rfl
@[simp] theorem emitTrace_dispDl (ops : List BusOp) (r : Option (List (List Byte))) : (State.emitTrace ops r s).dispDl = s.dispDl := rfl
@[simp] theorem emitTrace_waitStart (ops : List BusOp) (r : Option (List (List Byte))) : (State.emitTrace ops r s).waitStart = s.waitStart := rfl
@[simp] theorem emitTrace_wake (ops : List BusOp) (r : Option (List (List Byte))) : (State.emitTrace ops r s).wake = s.wake := rfl
@[simp] theorem emitTrace_stop (ops : List BusOp) (r : Option (List (List Byte))) : (State.emitTrace ops r s).stop = s.stop := rfl
@[simp] theorem emitTrace_irqPend (ops : List BusOp) (r : Option (List (List Byte))) : (State.emitTrace ops r s).irqPend = s.irqPend := rfl
@[simp] theorem emitTrace_intPrev (ops : List BusOp) (r : Option (List (List Byte))) : (State.emitTrace ops r s).intPrev = s.intPrev := rfl
@[simp] theorem emitTrace_phase (ops : List BusOp) (r : Option (List (List Byte))) : (State.emitTrace ops r s).phase = s.phase := rfl
@[simp] theorem emitTrace_fmt (ops : List BusOp) (r : Option (List (List Byte))) : (State.emitTrace ops r s).fmt = s.fmt := rfl
@[simp] theorem emitTrace_temp0 (ops : List BusOp) (r : Option (List (List Byte))) : (State.emitTrace ops r s).temp0 = s.temp0 := rfl
@[simp] theorem emitTrace_temp1 (ops : List BusOp) (r : Option (List (List Byte))) : (State.emitTrace ops r s).temp1 = s.temp1 := rfl
@[simp] theorem emitTrace_ts (ops : List BusOp) (r : Option (List (List Byte))) : (State.emitTrace ops r s).ts = s.ts := rfl
@[simp] theorem emitTrace_err (ops : List BusOp) (r : Option (List (List Byte))) : (State.emitTrace ops r s).err = s.err := rfl
@[simp] theorem emitTrace_pub (ops : List BusOp) (r : Option (List (List Byte))) : (State.emitTrace ops r s).pub = s.pub := rfl
@[simp] theorem emitTrace_log (ops : List BusOp) (r : Option (List (List Byte))) : (State.emitTrace ops r s).log = s.log := rfl
@[simp] theorem emitTrace_diag (ops : List BusOp) (r : Option (List (List Byte))) : (State.emitTrace ops r s).diag = s.diag := rfl
@[simp] theorem emitTrace_trace (ops : List BusOp) (r : Option (List (List Byte))) : (State.emitTrace ops r s).trace = s.trace ++ [{ ops := ops, outcome := r }] := rfl
@[simp] theorem emitTrace_params (ops : List BusOp) (r : Option (List (List Byte))) : (State.emitTrace ops r s).params = s.params := rfl
@[simp] theorem emitTrace_loop (ops : List BusOp) (r : Option (List (List Byte))) : (State.emitTrace ops r s).loop = s.loop := rfl
@[simp] theorem emitTrace_gap (ops : List BusOp) (r : Option (List (List Byte))) : (State.emitTrace ops r s).gap = s.gap := rfl
@[simp] theorem emitTrace_agent (ops : List BusOp) (r : Option (List (List Byte))) : (State.emitTrace ops r s).agent = s.agent := rfl
@[simp] theorem emitTrace_hostPort (ops : List BusOp) (r : Option (List (List Byte))) : (State.emitTrace ops r s).hostPort = s.hostPort := rfl
@[simp] theorem emitTrace_reqPort (ops : List BusOp) (r : Option (List (List Byte))) : (State.emitTrace ops r s).reqPort = s.reqPort := rfl
@[simp] theorem emitTrace_responses (ops : List BusOp) (r : Option (List (List Byte))) : (State.emitTrace ops r s).responses = s.responses := rfl
@[simp] theorem emitTrace_env (ops : List BusOp) (r : Option (List (List Byte))) : (State.emitTrace ops r s).env = s.env := rfl
@[simp] theorem emitTrace_drawn (ops : List BusOp) (r : Option (List (List Byte))) : (State.emitTrace ops r s).drawn = s.drawn := rfl

/-! ### `State.setWake` -/

@[simp] theorem setWake_ch0 : (State.setWake s).ch0 = s.ch0 := rfl
@[simp] theorem setWake_ch1 : (State.setWake s).ch1 = s.ch1 := rfl
@[simp] theorem setWake_shadow : (State.setWake s).shadow = s.shadow := rfl
@[simp] theorem setWake_cacheB : (State.setWake s).cacheB = s.cacheB := rfl
@[simp] theorem setWake_cacheA : (State.setWake s).cacheA = s.cacheA := rfl
@[simp] theorem setWake_xmPresent : (State.setWake s).xmPresent = s.xmPresent := rfl
@[simp] theorem setWake_entry : (State.setWake s).entry = s.entry := rfl
@[simp] theorem setWake_dctrl : (State.setWake s).dctrl = s.dctrl := rfl
@[simp] theorem setWake_lcdPresent : (State.setWake s).lcdPresent = s.lcdPresent := rfl
@[simp] theorem setWake_now : (State.setWake s).now = s.now := rfl
@[simp] theorem setWake_logDl : (State.setWake s).logDl = s.logDl := rfl
@[simp] theorem setWake_dispDl : (State.setWake s).dispDl = s.dispDl := rfl
@[simp] theorem setWake_waitStart : (State.setWake s).waitStart = s.waitStart := rfl
@[simp] theorem setWake_wake : (State.setWake s).wake = true := rfl
@[simp] theorem setWake_stop : (State.setWake s).stop = s.stop := rfl
@[simp] theorem setWake_irqPend : (State.setWake s).irqPend = s.irqPend := rfl
@[simp] theorem setWake_intPrev : (State.setWake s).intPrev = s.intPrev := rfl
@[simp] theorem setWake_phase : (State.setWake s).phase = s.phase := rfl
@[simp] theorem setWake_fmt : (State.setWake s).fmt = s.fmt := rfl
@[simp] theorem setWake_temp0 : (State.setWake s).temp0 = s.temp0 := rfl
@[simp] theorem setWake_temp1 : (State.setWake s).temp1 = s.temp1 := rfl
@[simp] theorem setWake_ts : (State.setWake s).ts = s.ts := rfl
@[simp] theorem setWake_err : (State.setWake s).err = s.err := rfl
@[simp] theorem setWake_pub : (State.setWake s).pub = s.pub := rfl
@[simp] theorem setWake_log : (State.setWake s).log = s.log := rfl
@[simp] theorem setWake_diag : (State.setWake s).diag = s.diag := rfl
@[simp] theorem setWake_trace : (State.setWake s).trace = s.trace := rfl
@[simp] theorem setWake_params : (State.setWake s).params = s.params := rfl
@[simp] theorem setWake_loop : (State.setWake s).loop = s.loop := rfl
@[simp] theorem setWake_gap : (State.setWake s).gap = s.gap := rfl
@[simp] theorem setWake_agent : (State.setWake s).agent = s.agent := rfl
@[simp] theorem setWake_hostPort : (State.setWake s).hostPort = s.hostPort := rfl
@[simp] theorem setWake_reqPort : (State.setWake s).reqPort = s.reqPort := rfl
@[simp] theorem setWake_responses : (State.setWake s).responses = s.responses := rfl
@[simp] theorem setWake_env : (State.setWake s).env = s.env := rfl
@[simp] theorem setWake_drawn : (State.setWake s).drawn = s.drawn := rfl

/-! ### `State.setStop` -/

@[simp] theorem setStop_ch0 : (State.setStop s).ch0 = s.ch0 := rfl
@[simp] theorem setStop_ch1 : (State.setStop s).ch1 = s.ch1 := rfl
@[simp] theorem setStop_shadow : (State.setStop s).shadow = s.shadow := rfl
@[simp] theorem setStop_cacheB : (State.setStop s).cacheB = s.cacheB := rfl
@[simp] theorem setStop_cacheA : (State.setStop s).cacheA = s.cacheA := rfl
@[simp] theorem setStop_xmPresent : (State.setStop s).xmPresent = s.xmPresent := rfl
@[simp] theorem setStop_entry : (State.setStop s).entry = s.entry := rfl
@[simp] theorem setStop_dctrl : (State.setStop s).dctrl = s.dctrl := rfl
@[simp] theorem setStop_lcdPresent : (State.setStop s).lcdPresent = s.lcdPresent := rfl
@[simp] theorem setStop_now : (State.setStop s).now = s.now := rfl
@[simp] theorem setStop_logDl : (State.setStop s).logDl = s.logDl := rfl
@[simp] theorem setStop_dispDl : (State.setStop s).dispDl = s.dispDl := rfl
@[simp] theorem setStop_waitStart : (State.setStop s).waitStart = s.waitStart := rfl
@[simp] theorem setStop_wake : (State.setStop s).wake = s.wake := rfl
@[simp] theorem setStop_stop : (State.setStop s).stop = true := rfl
@[simp] theorem setStop_irqPend : (State.setStop s).irqPend = s.irqPend := rfl
@[simp] theorem setStop_intPrev : (State.setStop s).intPrev = s.intPrev := rfl
@[simp] theorem setStop_phase : (State.setStop s).phase = s.phase := rfl
@[simp] theorem setStop_fmt : (State.setStop s).fmt = s.fmt := rfl
@[simp] theorem setStop_temp0 : (State.setStop s).temp0 = s.temp0 := rfl
@[simp] theorem setStop_temp1 : (State.setStop s).temp1 = s.temp1 := rfl
@[simp] theorem setStop_ts : (State.setStop s).ts = s.ts := rfl
@[simp] theorem setStop_err : (State.setStop s).err = s.err := rfl
@[simp] theorem setStop_pub : (State.setStop s).pub = s.pub := rfl
@[simp] theorem setStop_log : (State.setStop s).log = s.log := rfl
@[simp] theorem setStop_diag : (State.setStop s).diag = s.diag := rfl
@[simp] theorem setStop_trace : (State.setStop s).trace = s.trace := rfl
@[simp] theorem setStop_params : (State.setStop s).params = s.params := rfl
@[simp] theorem setStop_loop : (State.setStop s).loop = s.loop := rfl
@[simp] theorem setStop_gap : (State.setStop s).gap = s.gap := rfl
@[simp] theorem setStop_agent : (State.setStop s).agent = s.agent := rfl
@[simp] theorem setStop_hostPort : (State.setStop s).hostPort = s.hostPort := rfl
@[simp] theorem setStop_reqPort : (State.setStop s).reqPort = s.reqPort := rfl
@[simp] theorem setStop_responses : (State.setStop s).responses = s.responses := rfl
@[simp] theorem setStop_env : (State.setStop s).env = s.env := rfl
@[simp] theorem setStop_drawn : (State.setStop s).drawn = s.drawn := rfl

/-! ### `State.senseLine` -/

@[simp] theorem senseLine_ch0 (high : Bool) : (State.senseLine high s).ch0 = s.ch0 := rfl
@[simp] theorem senseLine_ch1 (high : Bool) : (State.senseLine high s).ch1 = s.ch1 := rfl
@[simp] theorem senseLine_shadow (high : Bool) : (State.senseLine high s).shadow = s.shadow := rfl
@[simp] theorem senseLine_cacheB (high : Bool) : (State.senseLine high s).cacheB = s.cacheB := rfl
@[simp] theorem senseLine_cacheA (high : Bool) : (State.senseLine high s).cacheA = s.cacheA := rfl
@[simp] theorem senseLine_xmPresent (high : Bool) : (State.senseLine high s).xmPresent = s.xmPresent := rfl
@[simp] theorem senseLine_entry (high : Bool) : (State.senseLine high s).entry = s.entry := rfl
@[simp] theorem senseLine_dctrl (high : Bool) : (State.senseLine high s).dctrl = s.dctrl := rfl
@[simp] theorem senseLine_lcdPresent (high : Bool) : (State.senseLine high s).lcdPresent = s.lcdPresent := rfl
@[simp] theorem senseLine_now (high : Bool) : (State.senseLine high s).now = s.now := rfl
@[simp] theorem senseLine_logDl (high : Bool) : (State.senseLine high s).logDl = s.logDl := rfl
@[simp] theorem senseLine_dispDl (high : Bool) : (State.senseLine high s).dispDl = s.dispDl := rfl
@[simp] theorem senseLine_waitStart (high : Bool) : (State.senseLine high s).waitStart = s.waitStart := rfl
@[simp] theorem senseLine_wake (high : Bool) : (State.senseLine high s).wake = s.wake := rfl
@[simp] theorem senseLine_stop (high : Bool) : (State.senseLine high s).stop = s.stop := rfl
@[simp] theorem senseLine_irqPend (high : Bool) : (State.senseLine high s).irqPend = (s.irqPend || (lineAsserted high && !s.intPrev)) := rfl
@[simp] theorem senseLine_intPrev (high : Bool) : (State.senseLine high s).intPrev = lineAsserted high := rfl
@[simp] theorem senseLine_phase (high : Bool) : (State.senseLine high s).phase = s.phase := rfl
@[simp] theorem senseLine_fmt (high : Bool) : (State.senseLine high s).fmt = s.fmt := rfl
@[simp] theorem senseLine_temp0 (high : Bool) : (State.senseLine high s).temp0 = s.temp0 := rfl
@[simp] theorem senseLine_temp1 (high : Bool) : (State.senseLine high s).temp1 = s.temp1 := rfl
@[simp] theorem senseLine_ts (high : Bool) : (State.senseLine high s).ts = s.ts := rfl
@[simp] theorem senseLine_err (high : Bool) : (State.senseLine high s).err = s.err := rfl
@[simp] theorem senseLine_pub (high : Bool) : (State.senseLine high s).pub = s.pub := rfl
@[simp] theorem senseLine_log (high : Bool) : (State.senseLine high s).log = s.log := rfl
@[simp] theorem senseLine_diag (high : Bool) : (State.senseLine high s).diag = s.diag := rfl
@[simp] theorem senseLine_trace (high : Bool) : (State.senseLine high s).trace = s.trace := rfl
@[simp] theorem senseLine_params (high : Bool) : (State.senseLine high s).params = s.params := rfl
@[simp] theorem senseLine_loop (high : Bool) : (State.senseLine high s).loop = s.loop := rfl
@[simp] theorem senseLine_gap (high : Bool) : (State.senseLine high s).gap = s.gap := rfl
@[simp] theorem senseLine_agent (high : Bool) : (State.senseLine high s).agent = s.agent := rfl
@[simp] theorem senseLine_hostPort (high : Bool) : (State.senseLine high s).hostPort = s.hostPort := rfl
@[simp] theorem senseLine_reqPort (high : Bool) : (State.senseLine high s).reqPort = s.reqPort := rfl
@[simp] theorem senseLine_responses (high : Bool) : (State.senseLine high s).responses = s.responses := rfl
@[simp] theorem senseLine_env (high : Bool) : (State.senseLine high s).env = s.env := rfl
@[simp] theorem senseLine_drawn (high : Bool) : (State.senseLine high s).drawn = s.drawn := rfl

/-! ### `State.noteWrite` -/

@[simp] theorem noteWrite_ch0 (reg v : Byte) : (State.noteWrite reg v s).ch0 = s.ch0 := rfl
@[simp] theorem noteWrite_ch1 (reg v : Byte) : (State.noteWrite reg v s).ch1 = s.ch1 := rfl
@[simp] theorem noteWrite_shadow (reg v : Byte) : (State.noteWrite reg v s).shadow = s.shadow.write reg v := rfl
@[simp] theorem noteWrite_cacheB (reg v : Byte) : (State.noteWrite reg v s).cacheB = (if reg = regGpiob ∨ reg = regOlatb then v else s.cacheB) := rfl
@[simp] theorem noteWrite_cacheA (reg v : Byte) : (State.noteWrite reg v s).cacheA = (if reg = regGpioa ∨ reg = regOlata then v else s.cacheA) := rfl
@[simp] theorem noteWrite_xmPresent (reg v : Byte) : (State.noteWrite reg v s).xmPresent = s.xmPresent := rfl
@[simp] theorem noteWrite_entry (reg v : Byte) : (State.noteWrite reg v s).entry = s.entry := rfl
@[simp] theorem noteWrite_dctrl (reg v : Byte) : (State.noteWrite reg v s).dctrl = s.dctrl := rfl
@[simp] theorem noteWrite_lcdPresent (reg v : Byte) : (State.noteWrite reg v s).lcdPresent = s.lcdPresent := rfl
@[simp] theorem noteWrite_now (reg v : Byte) : (State.noteWrite reg v s).now = s.now := rfl
@[simp] theorem noteWrite_logDl (reg v : Byte) : (State.noteWrite reg v s).logDl = s.logDl := rfl
@[simp] theorem noteWrite_dispDl (reg v : Byte) : (State.noteWrite reg v s).dispDl = s.dispDl := rfl
@[simp] theorem noteWrite_waitStart (reg v : Byte) : (State.noteWrite reg v s).waitStart = s.waitStart := rfl
@[simp] theorem noteWrite_wake (reg v : Byte) : (State.noteWrite reg v s).wake = s.wake := rfl
@[simp] theorem noteWrite_stop (reg v : Byte) : (State.noteWrite reg v s).stop = s.stop := rfl
@[simp] theorem noteWrite_irqPend (reg v : Byte) : (State.noteWrite reg v s).irqPend = s.irqPend := rfl
@[simp] theorem noteWrite_intPrev (reg v : Byte) : (State.noteWrite reg v s).intPrev = s.intPrev := rfl
@[simp] theorem noteWrite_phase (reg v : Byte) : (State.noteWrite reg v s).phase = s.phase := rfl
@[simp] theorem noteWrite_fmt (reg v : Byte) : (State.noteWrite reg v s).fmt = s.fmt := rfl
@[simp] theorem noteWrite_temp0 (reg v : Byte) : (State.noteWrite reg v s).temp0 = s.temp0 := rfl
@[simp] theorem noteWrite_temp1 (reg v : Byte) : (State.noteWrite reg v s).temp1 = s.temp1 := rfl
@[simp] theorem noteWrite_ts (reg v : Byte) : (State.noteWrite reg v s).ts = s.ts := rfl
@[simp] theorem noteWrite_err (reg v : Byte) : (State.noteWrite reg v s).err = s.err := rfl
@[simp] theorem noteWrite_pub (reg v : Byte) : (State.noteWrite reg v s).pub = s.pub := rfl
@[simp] theorem noteWrite_log (reg v : Byte) : (State.noteWrite reg v s).log = s.log := rfl
@[simp] theorem noteWrite_diag (reg v : Byte) : (State.noteWrite reg v s).diag = s.diag := rfl
@[simp] theorem noteWrite_trace (reg v : Byte) : (State.noteWrite reg v s).trace = s.trace := rfl
@[simp] theorem noteWrite_params (reg v : Byte) : (State.noteWrite reg v s).params = s.params := rfl
@[simp] theorem noteWrite_loop (reg v : Byte) : (State.noteWrite reg v s).loop = s.loop := rfl
@[simp] theorem noteWrite_gap (reg v : Byte) : (State.noteWrite reg v s).gap = s.gap := rfl
@[simp] theorem noteWrite_agent (reg v : Byte) : (State.noteWrite reg v s).agent = s.agent := rfl
@[simp] theorem noteWrite_hostPort (reg v : Byte) : (State.noteWrite reg v s).hostPort = s.hostPort := rfl
@[simp] theorem noteWrite_reqPort (reg v : Byte) : (State.noteWrite reg v s).reqPort = s.reqPort := rfl
@[simp] theorem noteWrite_responses (reg v : Byte) : (State.noteWrite reg v s).responses = s.responses := rfl
@[simp] theorem noteWrite_env (reg v : Byte) : (State.noteWrite reg v s).env = s.env := rfl
@[simp] theorem noteWrite_drawn (reg v : Byte) : (State.noteWrite reg v s).drawn = s.drawn := rfl

end Sys2Proof.Machine
end

