-- ==== Sys2Proof/Laws/Ops.lean ====
section
/-! SUPPORT. Once per shared operation: everything it can do. Proofs cite these lemmas instead of unfolding
the operations. -/

namespace Sys2Proof.Machine

/-! ## Results -/

@[simp] theorem andThen_ok {α β : Type} (a : α) (s : State) (k : α → State → Res β) :
    (Res.ok a s).andThen k = k a s := rfl

@[simp] theorem andThen_err {α β : Type} (e : Err) (s : State) (k : α → State → Res β) :
    (Res.err e s : Res α).andThen k = .err e s := rfl

@[simp] theorem noResult_ok (u : Unit) (s : State) : (Res.ok u s).noResult = .ok [] s := rfl

@[simp] theorem noResult_err (e : Err) (s : State) : (Res.err e s : Res Unit).noResult = .err e s := rfl

@[simp] theorem reply_ok (b : List Byte) (s : State) : reply (.ok b s) = s.respond (0 :: b) := rfl

@[simp] theorem reply_err (e : Err) (s : State) : reply (.err e s) = s.respond [e.code] := rfl

theorem andThen_assoc {α β γ : Type} (r : Res α) (k : α → State → Res β) (l : β → State → Res γ) :
    (r.andThen k).andThen l = r.andThen fun a s => (k a s).andThen l := by
  cases r <;> rfl

/-- What can be known of a sequence that succeeded. -/
theorem andThen_eq_ok {α β : Type} {r : Res α} {k : α → State → Res β} {b : β} {t : State}
    (h : r.andThen k = .ok b t) : ∃ a s, r = .ok a s ∧ k a s = .ok b t := by
  cases r with
  | ok a s => exact ⟨a, s, rfl, h⟩
  | err e s => cases h

/-- What can be known of a sequence that failed. -/
theorem andThen_eq_err {α β : Type} {r : Res α} {k : α → State → Res β} {e : Err} {t : State}
    (h : r.andThen k = .err e t) : r = .err e t ∨ ∃ a s, r = .ok a s ∧ k a s = .err e t := by
  cases r with
  | ok a s => exact .inr ⟨a, s, rfl, h⟩
  | err e' s => left; cases h; rfl

theorem withBool_bad {b : Byte} {s : State} {k : Bool → Res (List Byte)} (h0 : b ≠ 0) (h1 : b ≠ 1) :
    withBool b s k = .err .configuration s := by
  simp only [withBool, boolOf, if_neg h0, if_neg h1]

@[simp] theorem withBool_ofBool (v : Bool) (s : State) (k : Bool → Res (List Byte)) :
    withBool (if v then 1 else 0) s k = k v := by
  cases v <;> rfl

/-! ## The environment reads only what it owns, and `PUB` -/

@[simp] theorem envFrom_self (s : State) : s.envFrom s = s := rfl

@[simp] theorem envFrom_envFrom (s t u : State) : (s.envFrom (t.envFrom u)) = s.envFrom u := rfl

theorem act_envFrom (a : EnvAct) (s t : State) : (s.envFrom t).act a = (s.act a).envFrom t := by
  match a with
  | .line _ => rfl
  | .request .loop _ => rfl
  | .request .req _ => rfl

theorem act_pub (a : EnvAct) (s : State) : (s.act a).pub = s.pub := by
  match a with
  | .line _ => rfl
  | .request .loop _ => rfl
  | .request .req _ => rfl

theorem acts_envFrom (acts : List EnvAct) (s t : State) :
    acts.foldl State.act (s.envFrom t) = (acts.foldl State.act s).envFrom t := by
  induction acts generalizing s with
  | nil => rfl
  | cons a as ih => simp only [List.foldl_cons, act_envFrom, ih]

theorem acts_pub (acts : List EnvAct) (s : State) : (acts.foldl State.act s).pub = s.pub := by
  induction acts generalizing s with
  | nil => rfl
  | cons a as ih => simp only [List.foldl_cons, ih, act_pub]

theorem serveReq_envFrom (bs : List Byte) (s t : State) (h : t.pub = s.pub) :
    serveReq bs (s.envFrom t) = (serveReq bs s).envFrom t := by
  induction bs generalizing s with
  | nil => rfl
  | cons b bs ih =>
    have hp : snapshotBytes (s.envFrom t).pub = snapshotBytes s.pub := congrArg snapshotBytes h
    simp only [serveReq]
    rw [hp]
    split
    · exact ih { s.setWake with responses := s.responses ++ [(.req, [okCode])] } h
    · split
      · exact ih { s.setStop with responses := s.responses ++ [(.req, [okCode])] } h
      · split
        · exact ih { s with responses := s.responses ++ [(.req, okCode :: snapshotBytes s.pub)] } h
        · rfl

/-- The environment acts the same whatever LOOP's own fields hold, `PUB` apart. -/
theorem surround_envFrom (ms : Nat) (acts : List EnvAct) (s t : State) (h : t.pub = s.pub) :
    (s.envFrom t).surround ms acts = (s.surround ms acts).envFrom t := by
  have h1 : acts.foldl State.act { s.envFrom t with now := (s.envFrom t).now + ms } =
      (acts.foldl State.act { s with now := s.now + ms }).envFrom t :=
    acts_envFrom acts { s with now := s.now + ms } t
  have h2 : t.pub = (acts.foldl State.act { s with now := s.now + ms }).pub :=
    h.trans (acts_pub acts { s with now := s.now + ms }).symm
  simp only [State.surround, h1]
  exact serveReq_envFrom _ _ t h2

/-- The environment changes nothing that LOOP owns. -/
theorem surround_eq (ms : Nat) (acts : List EnvAct) (s : State) :
    s.surround ms acts = (s.surround ms acts).envFrom s :=
  surround_envFrom ms acts s s rfl

@[simp] theorem nextDraw_envFrom (s t : State) : (s.envFrom t).nextDraw = s.nextDraw := rfl

theorem dropDraw_envFrom (s t : State) : (s.envFrom t).dropDraw = s.dropDraw.envFrom t := by
  have he : (s.envFrom t).env = s.env := rfl
  unfold State.dropDraw
  rw [he]
  cases s.env <;> rfl

@[simp] theorem dropDraw_pub (s : State) : s.dropDraw.pub = s.pub := by
  simp only [State.dropDraw]
  split <;> rfl

theorem dropDraw_eq (s : State) : s.dropDraw = s.dropDraw.envFrom s := dropDraw_envFrom s s

theorem elapse_envFrom (s t : State) (h : t.pub = s.pub) : (s.envFrom t).elapse = s.elapse.envFrom t := by
  simp only [State.elapse, nextDraw_envFrom, dropDraw_envFrom]
  exact surround_envFrom _ _ _ _ (h.trans (dropDraw_pub s).symm)

theorem interlude_envFrom (s t : State) (h : t.pub = s.pub) :
    (s.envFrom t).interlude = s.interlude.envFrom t := by
  simp only [State.interlude, nextDraw_envFrom, dropDraw_envFrom]
  exact surround_envFrom _ _ _ _ (h.trans (dropDraw_pub s).symm)

theorem settle_envFrom (s t : State) (h : t.pub = s.pub) : (s.envFrom t).settle = s.settle.envFrom t := by
  simp only [State.settle, nextDraw_envFrom, dropDraw_envFrom]
  exact surround_envFrom _ _ _ _ (h.trans (dropDraw_pub s).symm)

theorem elapse_eq (s : State) : s.elapse = s.elapse.envFrom s := elapse_envFrom s s rfl

theorem interlude_eq (s : State) : s.interlude = s.interlude.envFrom s := interlude_envFrom s s rfl

theorem settle_eq (s : State) : s.settle = s.settle.envFrom s := settle_envFrom s s rfl

/-! ## Time and the flags of the environment -/

theorem act_now (a : EnvAct) (s : State) : (s.act a).now = s.now := by
  match a with
  | .line _ => rfl
  | .request .loop _ => rfl
  | .request .req _ => rfl

theorem acts_now (acts : List EnvAct) (s : State) : (acts.foldl State.act s).now = s.now := by
  induction acts generalizing s with
  | nil => rfl
  | cons a as ih => simp only [List.foldl_cons, ih, act_now]

theorem serveReq_now (bs : List Byte) (s : State) : (serveReq bs s).now = s.now := by
  induction bs generalizing s with
  | nil => rfl
  | cons b bs ih =>
    simp only [serveReq]
    split
    · rw [ih]; rfl
    · split
      · rw [ih]; rfl
      · split
        · rw [ih]
        · rfl

/-- `NOW` advances by exactly the step's time (rule R282). -/
theorem surround_now (ms : Nat) (acts : List EnvAct) (s : State) : (s.surround ms acts).now = s.now + ms := by
  simp only [State.surround, serveReq_now, acts_now]

@[simp] theorem dropDraw_now (s : State) : s.dropDraw.now = s.now := by
  simp only [State.dropDraw]
  split <;> rfl

theorem elapse_now (s : State) : s.elapse.now = s.now + s.nextDraw.dt := by
  simp only [State.elapse, surround_now, dropDraw_now]

@[simp] theorem interlude_now (s : State) : s.interlude.now = s.now := by
  simp only [State.interlude, surround_now, dropDraw_now, Nat.add_zero]

theorem settle_now (s : State) : s.settle.now = s.now + (15 + s.nextDraw.dt) := by
  simp only [State.settle, surround_now, dropDraw_now, settleMs]

theorem act_stop (a : EnvAct) (s : State) : (s.act a).stop = s.stop := by
  match a with
  | .line _ => rfl
  | .request .loop _ => rfl
  | .request .req _ => rfl

theorem acts_stop (acts : List EnvAct) (s : State) : (acts.foldl State.act s).stop = s.stop := by
  induction acts generalizing s with
  | nil => rfl
  | cons a as ih => simp only [List.foldl_cons, ih, act_stop]

theorem serveReq_stop (bs : List Byte) (s : State) (h : s.stop = true) : (serveReq bs s).stop = true := by
  induction bs generalizing s with
  | nil => exact h
  | cons b bs ih =>
    simp only [serveReq]
    split
    · exact ih _ h
    · split
      · exact ih _ rfl
      · split
        · exact ih _ h
        · exact h

/-- A stop request is never taken back (rule R35). -/
theorem surround_stop (ms : Nat) (acts : List EnvAct) (s : State) (h : s.stop = true) :
    (s.surround ms acts).stop = true := by
  simp only [State.surround]
  exact serveReq_stop _ _ ((acts_stop acts _).trans h)

/-! ## The bus -/

/-- Everything a transaction can do (20_memory.md rules R60 to R63). -/
theorem txn_cases (ops : List BusOp) (s : State) :
    (∃ data, s.nextDraw.outcome = .success data ∧
      txn ops s = .ok (readResults ops data) (s.exchanged ops (readResults ops data))) ∨
    (s.nextDraw.outcome = .busError ∧ txn ops s = .err .bus (s.exchangeFailed ops)) := by
  have ht : ∀ r, s.elapse.emitTrace ops r =
      { s.elapse with trace := s.trace ++ [{ ops := ops, outcome := r }] } := fun r => by
    rw [elapse_eq s]; rfl
  cases h : s.nextDraw.outcome with
  | busError =>
    right
    refine ⟨rfl, ?_⟩
    simp only [txn, h, State.exchangeFailed, ← ht]
    rfl
  | success data =>
    left
    refine ⟨data, rfl, ?_⟩
    simp only [txn, h, State.exchanged, ← ht]
    rfl

theorem txn_ok {ops : List BusOp} {s : State} {data : List Byte} (h : s.nextDraw.outcome = .success data) :
    txn ops s = .ok (readResults ops data) (s.exchanged ops (readResults ops data)) := by
  rcases txn_cases ops s with ⟨d, hd, ht⟩ | ⟨hb, -⟩
  · rw [h] at hd; cases hd; exact ht
  · rw [h] at hb; cases hb

theorem txn_failed {ops : List BusOp} {s : State} (h : s.nextDraw.outcome = .busError) :
    txn ops s = .err .bus (s.exchangeFailed ops) := by
  rcases txn_cases ops s with ⟨d, hd, -⟩ | ⟨-, ht⟩
  · rw [h] at hd; cases hd
  · exact ht

/-- Everything a register write can do (40_expander.md rule R130). -/
theorem regWrite_cases (reg v : Byte) (s : State) :
    (s.nextDraw.outcome ≠ .busError ∧
      regWrite reg v s = .ok () ((s.exchanged [.writeBytes expAddr [reg, v]] []).noteWrite reg v)) ∨
    (s.nextDraw.outcome = .busError ∧
      regWrite reg v s = .err .bus (s.exchangeFailed [.writeBytes expAddr [reg, v]])) := by
  rcases txn_cases [.writeBytes expAddr [reg, v]] s with ⟨d, hd, ht⟩ | ⟨hb, ht⟩
  · left
    refine ⟨by rw [hd]; simp, ?_⟩
    simp only [regWrite, ht]
    rfl
  · right
    refine ⟨hb, ?_⟩
    simp only [regWrite, ht]
    rfl

/-- Everything a register read can do (40_expander.md rule R131). -/
theorem regRead_cases (reg : Byte) (s : State) :
    (∃ data, s.nextDraw.outcome = .success data ∧
      regRead reg s = .ok (data.headD 0) (s.exchanged (readOps reg) [[data.headD 0]])) ∨
    (s.nextDraw.outcome = .busError ∧ regRead reg s = .err .bus (s.exchangeFailed (readOps reg))) := by
  rcases txn_cases (readOps reg) s with ⟨d, hd, ht⟩ | ⟨hb, ht⟩
  · left
    refine ⟨d, hd, ?_⟩
    have : regRead reg s = (txn (readOps reg) s).andThen fun r s1 => .ok (readByte r 0) s1 := rfl
    rw [this, ht]
    cases d <;> rfl
  · right
    refine ⟨hb, ?_⟩
    have : regRead reg s = (txn (readOps reg) s).andThen fun r s1 => .ok (readByte r 0) s1 := rfl
    rw [this, ht]
    rfl

end Sys2Proof.Machine
end

