-- ==== Sys2Proof/Laws/Exchange.lean ====
section
/-! SUPPORT. Several exchanges in a row: how the environment's draws are used up, and how one exchange after
another adds up to the closed forms of Safety.lean. -/

namespace Sys2Proof.Machine

/-! ## The draws -/

theorem act_draws (a : EnvAct) (s : State) : (s.act a).env = s.env ∧ (s.act a).drawn = s.drawn := by
  match a with
  | .line _ => exact ⟨rfl, rfl⟩
  | .request .loop _ => exact ⟨rfl, rfl⟩
  | .request .req _ => exact ⟨rfl, rfl⟩

theorem acts_draws (acts : List EnvAct) (s : State) :
    (acts.foldl State.act s).env = s.env ∧ (acts.foldl State.act s).drawn = s.drawn := by
  induction acts generalizing s with
  | nil => exact ⟨rfl, rfl⟩
  | cons a as ih =>
    obtain ⟨h1, h2⟩ := ih (s.act a)
    obtain ⟨h3, h4⟩ := act_draws a s
    exact ⟨h1.trans h3, h2.trans h4⟩

theorem serveReq_draws (bs : List Byte) (s : State) :
    (serveReq bs s).env = s.env ∧ (serveReq bs s).drawn = s.drawn := by
  induction bs generalizing s with
  | nil => exact ⟨rfl, rfl⟩
  | cons b bs ih =>
    simp only [serveReq]
    split
    · exact ih _
    · split
      · exact ih _
      · split
        · exact ih _
        · exact ⟨rfl, rfl⟩

theorem surround_draws (ms : Nat) (acts : List EnvAct) (s : State) :
    (s.surround ms acts).env = s.env ∧ (s.surround ms acts).drawn = s.drawn := by
  obtain ⟨h1, h2⟩ := acts_draws acts { s with now := s.now + ms }
  obtain ⟨h3, h4⟩ := serveReq_draws (acts.foldl State.act { s with now := s.now + ms }).reqPort
    (acts.foldl State.act { s with now := s.now + ms })
  exact ⟨h3.trans h1, h4.trans h2⟩

/-- Two states with the same draws to come. -/
theorem draws_congr {s t : State} (he : s.env = t.env) (hd : s.drawn = t.drawn) :
    s.nextDraw = t.nextDraw ∧ s.dropDraw.env = t.dropDraw.env ∧ s.dropDraw.drawn = t.dropDraw.drawn := by
  unfold State.nextDraw State.dropDraw
  rw [he, hd]
  cases t.env <;> simp_all

theorem nextDraws_congr (n : Nat) {s t : State} (he : s.env = t.env) (hd : s.drawn = t.drawn) :
    s.nextDraws n = t.nextDraws n := by
  induction n generalizing s t with
  | zero => rfl
  | succ n ih =>
    obtain ⟨h1, h2, h3⟩ := draws_congr he hd
    simp only [State.nextDraws, h1, ih h2 h3]

theorem busOk_congr (n : Nat) {s t : State} (he : s.env = t.env) (hd : s.drawn = t.drawn) :
    s.busOk n = t.busOk n := by
  simp only [State.busOk, nextDraws_congr n he hd]

theorem drawAt_congr (n : Nat) {s t : State} (he : s.env = t.env) (hd : s.drawn = t.drawn) :
    s.drawAt n = t.drawAt n := by
  induction n generalizing s t with
  | zero => exact (draws_congr he hd).1
  | succ n ih =>
    obtain ⟨-, h2, h3⟩ := draws_congr he hd
    exact ih h2 h3

theorem elapse_draws (s : State) : s.elapse.env = s.dropDraw.env ∧ s.elapse.drawn = s.dropDraw.drawn :=
  surround_draws _ _ _

theorem settle_draws (s : State) : s.settle.env = s.dropDraw.env ∧ s.settle.drawn = s.dropDraw.drawn :=
  surround_draws _ _ _

@[simp] theorem busOk_zero (s : State) : s.busOk 0 = true := rfl

theorem busOk_succ (n : Nat) (s : State) :
    s.busOk (n + 1) = true ↔ s.nextDraw.outcome ≠ .busError ∧ s.dropDraw.busOk n = true := by
  simp [State.busOk, State.nextDraws]

/-- A state that used up one draw of `s`. -/
theorem busOk_after {s t : State} (n : Nat) (he : t.env = s.dropDraw.env) (hd : t.drawn = s.dropDraw.drawn)
    (ht : t.busOk n = true) (h : s.nextDraw.outcome ≠ .busError) : s.busOk (n + 1) = true :=
  (busOk_succ n s).2 ⟨h, (busOk_congr n he hd) ▸ ht⟩

/-! ## Several steps of the environment -/

theorem elapse_pub (s : State) : s.elapse.pub = s.pub := by
  rw [elapse_eq s]; rfl

theorem settle_pub (s : State) : s.settle.pub = s.pub := by
  rw [settle_eq s]; rfl

theorem interlude_pub (s : State) : s.interlude.pub = s.pub := by
  rw [interlude_eq s]; rfl

theorem elapsed_envFrom (n : Nat) (s t : State) (h : t.pub = s.pub) :
    (s.envFrom t).elapsed n = (s.elapsed n).envFrom t := by
  induction n generalizing s with
  | zero => rfl
  | succ n ih =>
    simp only [State.elapsed, elapse_envFrom s t h]
    exact ih s.elapse (h.trans (elapse_pub s).symm)

theorem elapsed_eq (n : Nat) (s : State) : s.elapsed n = (s.elapsed n).envFrom s :=
  elapsed_envFrom n s s rfl

theorem elapsed_pub (n : Nat) (s : State) : (s.elapsed n).pub = s.pub := by
  rw [elapsed_eq n s]; rfl

theorem elapsed_add (m n : Nat) (s : State) : s.elapsed (m + n) = (s.elapsed m).elapsed n := by
  induction m generalizing s with
  | zero => simp [State.elapsed]
  | succ m ih =>
    rw [Nat.succ_add]
    exact ih s.elapse

/-! ## Successive bytes to bank B -/

@[simp] theorem wroteB_nil (s : State) : s.wroteB [] = s := by
  simp [State.wroteB, State.elapsed]

/-- What is left of the draws after an exchange. -/
theorem exchanged_draws (ops : List BusOp) (r : List (List Byte)) (s : State) :
    (s.exchanged ops r).env = s.dropDraw.env ∧ (s.exchanged ops r).drawn = s.dropDraw.drawn :=
  elapse_draws s

theorem writtenB_draws (v : Byte) (s : State) :
    (s.writtenB v).env = s.dropDraw.env ∧ (s.writtenB v).drawn = s.dropDraw.drawn :=
  elapse_draws s

/-- A successful write of bank B, seen from the state before it. -/
theorem writtenB_eq (v : Byte) (s : State) :
    s.writtenB v = s.elapse.envFrom { s with trace := s.trace ++ [wroteRecord 0x13 v], cacheB := v } := by
  simp only [State.writtenB, State.exchanged]
  rw [elapse_eq s]
  rfl

theorem writtenB_elapsed (n : Nat) (v : Byte) (s : State) :
    (s.writtenB v).elapsed n =
      (s.elapsed (n + 1)).envFrom { s with trace := s.trace ++ [wroteRecord 0x13 v], cacheB := v } := by
  rw [writtenB_eq, elapsed_envFrom]
  · rfl
  · exact (elapse_pub s).symm

theorem wroteB_cons (v : Byte) (bs : List Byte) (s : State) : (s.writtenB v).wroteB bs = s.wroteB (v :: bs) := by
  simp only [State.wroteB, writtenB_elapsed, List.length_cons]
  rw [elapsed_eq (bs.length + 1) s]
  have h1 : (s.writtenB v).trace = s.trace ++ [wroteRecord 0x13 v] := rfl
  have h2 : (s.writtenB v).cacheB = v := rfl
  rw [h1, h2]
  cases bs <;> simp [State.envFrom, List.getLast?_cons]

theorem failedB_cons (v : Byte) (bs : List Byte) (bad : Byte) (s : State) :
    (s.writtenB v).failedB bs bad = s.failedB (v :: bs) bad := by
  simp only [State.failedB, writtenB_elapsed, List.length_cons]
  rw [elapsed_eq (bs.length + 1 + 1) s]
  have h1 : (s.writtenB v).trace = s.trace ++ [wroteRecord 0x13 v] := rfl
  have h2 : (s.writtenB v).cacheB = v := rfl
  rw [h1, h2]
  cases bs <;> simp [State.envFrom, List.getLast?_cons]

theorem failedB_nil (bad : Byte) (s : State) :
    s.failedB [] bad = s.exchangeFailed [.writeBytes 0x20 [0x13, bad]] := by
  simp only [State.failedB, State.exchangeFailed, failedRecord]
  rw [elapsed_eq _ s, elapse_eq s]
  simp [State.envFrom, State.elapsed]

/-- Everything a write of bank B can do (40_expander.md rule R134). -/
theorem writeB_cases (v : Byte) (s : State) :
    (s.nextDraw.outcome ≠ .busError ∧ writeB v s = .ok () (s.writtenB v)) ∨
    (s.nextDraw.outcome = .busError ∧ writeB v s = .err .bus (s.exchangeFailed [.writeBytes 0x20 [0x13, v]])) := by
  rcases regWrite_cases regGpiob v s with ⟨h, hw⟩ | ⟨h, hw⟩
  · exact .inl ⟨h, hw⟩
  · exact .inr ⟨h, hw⟩

/-- Bytes to bank B in order, ended by the first failure. -/
def writesB : List Byte → State → Res Unit
  | [], s => .ok () s
  | v :: vs, s => (writeB v s).andThen fun _ s1 => writesB vs s1

/-- Everything a run of bank-B writes can do: all are made, or the first `k` and then the failing one. -/
theorem writesB_cases (bs : List Byte) (s : State) :
    (s.busOk bs.length = true ∧ writesB bs s = .ok () (s.wroteB bs)) ∨
    ∃ k < bs.length, s.busOk k = true ∧ (s.drawAt k).outcome = .busError ∧
      writesB bs s = .err .bus (s.failedB (bs.take k) (bs.getD k 0)) := by
  induction bs generalizing s with
  | nil => left; simp [writesB]
  | cons v vs ih =>
    rcases writeB_cases v s with ⟨h, hw⟩ | ⟨h, hw⟩
    · obtain ⟨he, hd⟩ := writtenB_draws v s
      rcases ih (s.writtenB v) with ⟨hb, ho⟩ | ⟨k, hk, hb, hf, ho⟩
      · left
        refine ⟨busOk_after _ he hd hb h, ?_⟩
        simp only [writesB, hw, andThen_ok, ho, wroteB_cons]
      · right
        refine ⟨k + 1, Nat.succ_lt_succ hk, busOk_after _ he hd hb h, ?_, ?_⟩
        · exact (drawAt_congr k he hd) ▸ hf
        · simp only [writesB, hw, andThen_ok, ho, failedB_cons]
          simp
    · right
      refine ⟨0, Nat.succ_pos _, rfl, h, ?_⟩
      simp only [writesB, hw, andThen_err]
      simp [failedB_nil]

end Sys2Proof.Machine
end

