-- ==== Sys2Proof/Laws/Expander.lean ====
section
/-! SUPPORT. What the expander's shared operations and a sensor's read do, once each. -/

namespace Sys2Proof.Machine

/-! ## Presence -/

theorem elapse_xmPresent (s : State) : s.elapse.xmPresent = s.xmPresent := by
  rw [elapse_eq s]; rfl

@[simp] theorem exchanged_xmPresent (ops : List BusOp) (r : List (List Byte)) (s : State) :
    (s.exchanged ops r).xmPresent = s.xmPresent := elapse_xmPresent s

@[simp] theorem exchangeFailed_xmPresent (ops : List BusOp) (s : State) :
    (s.exchangeFailed ops).xmPresent = s.xmPresent := elapse_xmPresent s

/-! ## Register writes -/

/-- What a successful register write leaves of LOOP's own fields: its record, and the copies it updates. -/
def State.regWritten (s : State) (w : Byte × Byte) : State :=
  ({ s with trace := s.trace ++ [wroteRecord w.1 w.2] } : State).noteWrite w.1 w.2

/-- The same for a sequence of register writes. -/
def State.regsWritten (ws : List (Byte × Byte)) (s : State) : State := ws.foldl State.regWritten s

theorem regWritten_envFrom (w : Byte × Byte) (a b : State) :
    (a.envFrom b).regWritten w = a.envFrom (b.regWritten w) := rfl

theorem regsWritten_envFrom (ws : List (Byte × Byte)) (a b : State) :
    (a.envFrom b).regsWritten ws = a.envFrom (b.regsWritten ws) := by
  induction ws generalizing b with
  | nil => rfl
  | cons w ws ih => exact ih (b.regWritten w)

theorem regsWritten_cons (w : Byte × Byte) (ws : List (Byte × Byte)) (s : State) :
    s.regsWritten (w :: ws) = (s.regWritten w).regsWritten ws := rfl

/-- A register write that succeeded, seen from the state before it. -/
theorem noted_eq (reg v : Byte) (s : State) :
    (s.exchanged [.writeBytes expAddr [reg, v]] []).noteWrite reg v = s.elapse.envFrom (s.regWritten (reg, v)) := by
  simp only [State.exchanged, State.regWritten]
  rw [elapse_eq s]
  rfl

/-- Everything a sequence of register writes can do: all are made, or those before the first that fails. -/
theorem regWrites_cases (ws : List (Byte × Byte)) (s : State) :
    (s.busOk ws.length = true ∧ regWrites ws s = .ok () ((s.elapsed ws.length).envFrom (s.regsWritten ws))) ∨
    ∃ k < ws.length, s.busOk k = true ∧ (s.drawAt k).outcome = .busError ∧ regWrites ws s =
      .err .bus ((s.elapsed (k + 1)).envFrom
        { s.regsWritten (ws.take k) with
          trace := s.trace ++ (ws.take k).map (fun w => wroteRecord w.1 w.2) ++
            [failedRecord (ws.getD k (0, 0)).1 (ws.getD k (0, 0)).2] }) := by
  induction ws generalizing s with
  | nil => left; exact ⟨rfl, rfl⟩
  | cons w ws ih =>
    obtain ⟨reg, v⟩ := w
    rcases regWrite_cases reg v s with ⟨h, hw⟩ | ⟨h, hw⟩
    · have hpub : (s.regWritten (reg, v)).pub = s.elapse.pub := (elapse_pub s).symm
      have he : (s.elapse.envFrom (s.regWritten (reg, v))).env = s.dropDraw.env := (elapse_draws s).1
      have hd : (s.elapse.envFrom (s.regWritten (reg, v))).drawn = s.dropDraw.drawn := (elapse_draws s).2
      rw [noted_eq] at hw
      rcases ih (s.elapse.envFrom (s.regWritten (reg, v))) with ⟨hb, ho⟩ | ⟨k, hk, hb, hf, ho⟩
      · left
        refine ⟨busOk_after _ he hd hb h, ?_⟩
        simp only [regWrites, hw, andThen_ok, ho]
        rw [elapsed_envFrom _ _ _ hpub, regsWritten_envFrom]
        rfl
      · right
        refine ⟨k + 1, Nat.succ_lt_succ hk, busOk_after _ he hd hb h, (drawAt_congr k he hd) ▸ hf, ?_⟩
        simp only [regWrites, hw, andThen_ok, ho]
        rw [elapsed_envFrom _ _ _ hpub, regsWritten_envFrom]
        have ht : (s.elapse.envFrom (s.regWritten (reg, v))).trace = s.trace ++ [wroteRecord reg v] := rfl
        rw [ht, List.append_assoc s.trace, List.singleton_append]
        rfl
    · right
      refine ⟨0, Nat.succ_pos _, rfl, h, ?_⟩
      simp only [regWrites, hw, andThen_err, State.exchangeFailed]
      rw [elapse_eq s]
      simp [State.envFrom, State.elapsed, failedRecord, expAddr, State.regsWritten]

/-! ## Sensors -/

theorem fill_two (bs : List Byte) : fill 2 bs = [bs.getD 0 0, bs.getD 1 0] := by
  match bs with
  | [] => rfl
  | [_] => rfl
  | _ :: _ :: _ => rfl

/-- Everything the read of a sensor can do (42_codec.md rule R231). -/
theorem readSensor_cases (i : ChannelId) (s : State) :
    (s.nextDraw.outcome ≠ .busError ∧
      readSensor i s = .ok
        { hi := (sensedPair s.nextDraw).1, lo := (sensedPair s.nextDraw).2,
          reading := sensedReading (s.channel i) s.nextDraw }
        (s.sensed (s.channel i) s.nextDraw)) ∨
    (s.nextDraw.outcome = .busError ∧
      readSensor i s = .err .bus (s.exchangeFailed (pollOps (s.channel i)))) := by
  have hops : sensorReadOps (s.channel i).addr = pollOps (s.channel i) := rfl
  rcases txn_cases (pollOps (s.channel i)) s with ⟨d, hd, ht⟩ | ⟨hb, ht⟩
  · left
    have hr : readResults (pollOps (s.channel i)) d = [[(sensedPair s.nextDraw).1, (sensedPair s.nextDraw).2]] := by
      simp only [pollOps, readResults, fill_two, sensedPair, drawData, hd]
    refine ⟨by rw [hd]; simp, ?_⟩
    rw [readSensor, hops, ht, hr]
    simp only [andThen_ok, readByte, State.sensed]
    rfl
  · right
    refine ⟨hb, ?_⟩
    rw [readSensor, hops, ht]
    rfl

/-! ## The red LED -/

/-- Everything XM.SET_RED can do (40_expander.md rule R137). -/
theorem setRed_cases (on : Bool) (s : State) :
    (s.xmPresent = false ∧ setRed on s = .ok () s) ∨
    (s.xmPresent = true ∧ s.nextDraw.outcome ≠ .busError ∧
      setRed on s = .ok () (s.writtenB ((s.cacheB &&& 0xFE) ||| (if on then 0x01 else 0)))) ∨
    (s.xmPresent = true ∧ s.nextDraw.outcome = .busError ∧
      setRed on s = .err .bus (s.exchangeFailed
        [.writeBytes 0x20 [0x13, (s.cacheB &&& 0xFE) ||| (if on then 0x01 else 0)]])) := by
  cases hx : s.xmPresent with
  | false => left; simp [setRed, hx]
  | true =>
    right
    rcases writeB_cases ((s.cacheB &&& 0xFE) ||| (if on then 0x01 else 0)) s with ⟨h, hw⟩ | ⟨h, hw⟩
    · left
      refine ⟨rfl, h, ?_⟩
      rw [setRed, if_pos hx]
      exact hw
    · right
      refine ⟨rfl, h, ?_⟩
      rw [setRed, if_pos hx]
      exact hw

end Sys2Proof.Machine
end

