-- ==== Sys2Proof/Laws/Lcd.lean ====
section
/-! SUPPORT. What the display unit's shared operations do: each is a run of the bytes that Safety.lean writes
out, acknowledged to the end or ended by the first failing write. -/

namespace Sys2Proof.Machine

theorem flipOf_red (n : BitVec 4) : flipOf n &&& redMask = 0 := by
  revert n; decide

/-- A line word carries the red LED bit of the cache, and no other bit 0. -/
theorem lineWord_red (n : BitVec 4) (rs : Bool) (c : Byte) : lineWord n rs c &&& redMask = c &&& redMask := by
  have h := flipOf_red n
  have hr : (if rs then rsMask else 0) &&& redMask = 0 := by cases rs <;> rfl
  simp only [lineWord]
  rw [BitVec.and_comm, BitVec.and_or_distrib_left, BitVec.and_or_distrib_left, BitVec.and_comm redMask, h,
    BitVec.and_comm redMask, hr]
  rw [BitVec.and_comm redMask, BitVec.and_assoc, BitVec.and_self]
  simp

theorem lineWord_congr (n : BitVec 4) (rs : Bool) {c d : Byte} (h : c &&& redMask = d &&& redMask) :
    lineWord n rs c = lineWord n rs d := by
  simp only [lineWord, h]

/-- The four bytes of `Send`, as the machine computes them. -/
theorem sendBytes_eq (b : Byte) (rs : Bool) (c : Byte) :
    sendBytes b rs c =
      [lineWord (b.extractLsb' 4 4) rs c ||| eMask, lineWord (b.extractLsb' 4 4) rs c,
       lineWord (b.extractLsb' 0 4) rs c ||| eMask, lineWord (b.extractLsb' 0 4) rs c] := by
  have h1 : (b.extractLsb' 4 4).toNat = b.toNat / 16 := by
    have := b.isLt
    simp [BitVec.extractLsb'_toNat, Nat.shiftRight_eq_div_pow]
    omega
  have h0 : (b.extractLsb' 0 4).toNat = b.toNat % 16 := by
    simp [BitVec.extractLsb'_toNat]
  simp only [sendBytes, lineWord, flipOf, h1, h0]
  rfl

theorem send_eq (b : Byte) (rs : Bool) (s : State) : send b rs s = writesB (sendBytes b rs s.cacheB) s := by
  rw [sendBytes_eq]
  simp only [send, sendNibble, writesB, andThen_assoc]
  rcases writeB_cases (lineWord (b.extractLsb' 4 4) rs s.cacheB ||| eMask) s with ⟨-, h⟩ | ⟨-, h⟩ <;> rw [h]
  · simp only [andThen_ok]
    generalize s.writtenB _ = t
    rcases writeB_cases (lineWord (b.extractLsb' 4 4) rs s.cacheB) t with ⟨-, h2⟩ | ⟨-, h2⟩ <;> rw [h2]
    · simp only [andThen_ok]
      have hc : (t.writtenB (lineWord (b.extractLsb' 4 4) rs s.cacheB)).cacheB =
          lineWord (b.extractLsb' 4 4) rs s.cacheB := rfl
      rw [hc, lineWord_congr _ rs (lineWord_red (b.extractLsb' 4 4) rs s.cacheB)]
      generalize t.writtenB _ = u
      rcases writeB_cases (lineWord (b.extractLsb' 0 4) rs s.cacheB ||| eMask) u with ⟨-, h3⟩ | ⟨-, h3⟩ <;>
        rw [h3]
      · simp only [andThen_ok]
        generalize u.writtenB _ = v
        rcases writeB_cases (lineWord (b.extractLsb' 0 4) rs s.cacheB) v with ⟨-, h4⟩ | ⟨-, h4⟩ <;> rw [h4] <;> rfl
      · rfl
    · rfl
  · rfl

/-- Everything `Send(b, rs)` can do (41_lcd.md rule R170). -/
theorem send_cases (b : Byte) (rs : Bool) (s : State) :
    (s.busOk 4 = true ∧ send b rs s = .ok () (s.wroteB (sendBytes b rs s.cacheB))) ∨
    ∃ k < 4, s.busOk k = true ∧ (s.drawAt k).outcome = .busError ∧
      send b rs s =
        .err .bus (s.failedB ((sendBytes b rs s.cacheB).take k) ((sendBytes b rs s.cacheB).getD k 0)) := by
  rw [send_eq]
  exact writesB_cases (sendBytes b rs s.cacheB) s

theorem needsSettle_eq (b : Byte) : needsSettle b = (commandOf b).settle := by
  simp only [needsSettle, commandOf]
  simp [Bool.or_assoc]

@[simp] theorem wroteB_lcdPresent (bs : List Byte) (s : State) : (s.wroteB bs).lcdPresent = s.lcdPresent := by
  simp only [State.wroteB]
  rw [elapsed_eq bs.length s]
  rfl

@[simp] theorem settle_lcdPresent (s : State) : s.settle.lcdPresent = s.lcdPresent := by
  rw [settle_eq s]
  rfl

@[simp] theorem sent_lcdPresent (x : Sent) (s : State) : (s.sent x).lcdPresent = s.lcdPresent := by
  simp only [State.sent]
  split <;> simp

/-- Two failing draws cannot both be the first, so the failing write is the one the draws say. -/
theorem first_failure {s : State} {j k : Nat} (hj : s.busOk j = true) (hk : s.busOk k = true)
    (fj : (s.drawAt j).outcome = .busError) (fk : (s.drawAt k).outcome = .busError) : j = k := by
  induction j generalizing s k with
  | zero =>
    cases k with
    | zero => rfl
    | succ k => exact absurd fj ((busOk_succ k s).1 hk).1
  | succ j ih =>
    cases k with
    | zero => exact absurd fk ((busOk_succ j s).1 hj).1
    | succ k => rw [ih ((busOk_succ j s).1 hj).2 ((busOk_succ k s).1 hk).2 fj fk]

theorem busOk_not_failed {s : State} {n k : Nat} (hn : s.busOk n = true) (hk : k < n) :
    (s.drawAt k).outcome ≠ .busError := by
  induction n generalizing s k with
  | zero => exact absurd hk (Nat.not_lt_zero k)
  | succ n ih =>
    obtain ⟨h1, h2⟩ := (busOk_succ n s).1 hn
    cases k with
    | zero => exact h1
    | succ k => exact ih (s := s.dropDraw) (k := k) h2 (by omega)

/-- A byte of a list to be sent, with the settle delay its entry asks for. -/
def sendOne (x : Sent) (s : State) : Res Unit :=
  (send x.byte x.rs s).andThen fun _ s1 => .ok () (if x.settle then s1.settle else s1)

/-- The bytes of a list in order, ended by the first failure. -/
def sendList : List Sent → State → Res Unit
  | [], s => .ok () s
  | x :: xs, s => (sendOne x s).andThen fun _ s1 => sendList xs s1

/-- What `sendsThen` says of a run of bytes, in one step: it is enough to look at how the run ends. -/
theorem sendsThen_of_sendList {bad done : State → Prop} {xs : List Sent} {s : State}
    (hok : ∀ t, sendList xs s = .ok () t → done t) (herr : ∀ t, sendList xs s = .err .bus t → bad t) :
    sendsThen bad xs done s := by
  induction xs generalizing s with
  | nil => exact hok s rfl
  | cons x xs ih =>
    constructor
    · intro hb
      have hs : sendOne x s = .ok () (s.sent x) := by
        rcases send_cases x.byte x.rs s with ⟨-, h⟩ | ⟨k, hk, -, hf, -⟩
        · simp only [sendOne, h, andThen_ok, State.sent]
        · exact absurd hf (busOk_not_failed hb hk)
      have hl : sendList (x :: xs) s = sendList xs (s.sent x) := by
        simp only [sendList, hs, andThen_ok]
      exact ih (fun t ht => hok t (hl.trans ht)) (fun t ht => herr t (hl.trans ht))
    · intro k hk hb hf
      apply herr
      rcases send_cases x.byte x.rs s with ⟨hb', -⟩ | ⟨j, -, hbj, hfj, h⟩
      · exact absurd hf (busOk_not_failed hb' hk)
      · rw [first_failure hb hbj hf hfj]
        simp only [sendList, sendOne, h, andThen_err]

theorem command_eq (b : Byte) (s : State) (h : s.lcdPresent = true) : command b s = sendOne (commandOf b) s := by
  have hn := needsSettle_eq b
  simp only [command, h, if_true, sendOne, hn]
  rfl

theorem sendOne_present {x : Sent} {s t : State} (h : sendOne x s = .ok () t) :
    t.lcdPresent = s.lcdPresent := by
  rcases send_cases x.byte x.rs s with ⟨-, h1⟩ | ⟨k, -, -, -, h1⟩ <;>
    simp only [sendOne, h1, andThen_ok, andThen_err] at h
  · cases h; split <;> simp
  · cases h

theorem sendOne_plain (b : Byte) (rs : Bool) (s : State) : sendOne (plainOf b rs) s = send b rs s := by
  simp only [sendOne, plainOf]
  cases send b rs s <;> rfl

theorem sendList_one (x : Sent) (s : State) : sendList [x] s = sendOne x s := by
  simp only [sendList]
  cases sendOne x s <;> rfl

theorem sendList_append (xs ys : List Sent) (s : State) :
    sendList (xs ++ ys) s = (sendList xs s).andThen fun _ s1 => sendList ys s1 := by
  induction xs generalizing s with
  | nil => rfl
  | cons x xs ih =>
    simp only [List.cons_append, sendList]
    cases sendOne x s with
    | ok u t => exact ih t
    | err e t => rfl

/-- A sequence of commands (41_lcd.md rule R176). -/
theorem commands_eq (bs : List Byte) (s : State) (h : s.lcdPresent = true) :
    commands bs s = sendList (bs.map commandOf) s := by
  induction bs generalizing s with
  | nil => rfl
  | cons b bs ih =>
    simp only [commands, List.map_cons, sendList, command_eq b s h]
    cases hs : sendOne (commandOf b) s with
    | ok u t => exact ih t (by rw [sendOne_present hs, h])
    | err e t => rfl

/-- Command bytes without settle delays (rule R175). -/
theorem sendAll_eq (bs : List Byte) (s : State) : sendAll bs s = sendList (bs.map (plainOf · false)) s := by
  induction bs generalizing s with
  | nil => rfl
  | cons b bs ih =>
    simp only [sendAll, List.map_cons, sendList, sendOne_plain]
    cases send b false s with
    | ok u t => exact ih t
    | err e t => rfl

/-- Data bytes (rule R190). -/
theorem sendData_eq (bs : List Byte) (s : State) : sendData bs s = sendList (bs.map (plainOf · true)) s := by
  induction bs generalizing s with
  | nil => rfl
  | cons b bs ih =>
    simp only [sendData, List.map_cons, sendList, sendOne_plain]
    cases send b true s with
    | ok u t => exact ih t
    | err e t => rfl

theorem putChar_eq (c : Byte) (s : State) (h : s.lcdPresent = true) :
    putChar c s = sendOne (if c = 0x0A then commandOf 0xC0 else plainOf c true) s := by
  by_cases hc : c = 0x0A
  · subst hc
    exact command_eq 0xC0 s h
  · rw [putChar, lineBreak, if_neg hc, if_neg hc, sendOne_plain]

/-- The characters of a text (rule R189). -/
theorem putChars_eq (cs : List Byte) (s : State) (h : s.lcdPresent = true) :
    putChars cs s = sendList (textOf cs) s := by
  induction cs generalizing s with
  | nil => rfl
  | cons c cs ih =>
    simp only [putChars, textOf, List.map_cons, sendList, putChar_eq c s h]
    cases hs : sendOne (if c = 0x0A then commandOf 0xC0 else plainOf c true) s with
    | ok u t => exact ih t (by rw [sendOne_present hs, h])
    | err e t => rfl

/-- Everything LCD.RESET can do with a display (rule R176). -/
theorem lcdReset_eq (s : State) (h : s.lcdPresent = true) :
    lcdReset s = sendList [commandOf 0x0C, commandOf 0x06, commandOf 0x01, commandOf 0x02]
      { s with entry := 0b10, dctrl := 0b100 } := by
  rw [lcdReset, if_pos h]
  exact commands_eq [0x0C, 0x06, 0x01, 0x02] { s with entry := entryDefault, dctrl := dctrlDefault } h

/-- Everything LCD.INIT can do with an expander (rule R175): the run of bytes, and what its end makes of it. -/
theorem lcdInit_eq (s : State) (h : s.xmPresent = true) :
    lcdInit s =
      match (sendList [plainOf 0x33 false, plainOf 0x32 false, plainOf 0x28 false]
          { s with lcdPresent := false }).andThen fun _ s1 =>
        sendList [commandOf 0x0C, commandOf 0x06, commandOf 0x01, commandOf 0x02]
          { s1 with lcdPresent := true, entry := 0b10, dctrl := 0b100 } with
      | .ok _ s2 => .ok () s2
      | .err _ s2 => .err .hardwareAbsent { s2 with lcdPresent := false } := by
  have hr : ∀ s1 : State, lcdReset { s1 with lcdPresent := true } =
      sendList [commandOf 0x0C, commandOf 0x06, commandOf 0x01, commandOf 0x02]
        { s1 with lcdPresent := true, entry := 0b10, dctrl := 0b100 } :=
    fun s1 => lcdReset_eq { s1 with lcdPresent := true } rfl
  simp only [lcdInit, h, if_true, sendAll_eq, hr]
  rfl

end Sys2Proof.Machine
end

