-- ==== Sys2Proof/Laws/PerInstr.lean ====
section
/-! SUPPORT. Laws about every request as syntax, one lemma per constructor. -/

namespace Sys2Proof.Laws

/-- The op code and the length of a request, row by row as the op-code map has them (30_encoding.md R92). -/
def tableRow : Instr → Byte × Nat
  | .tcDecodeA _ _ _ => (0x00, 4)
  | .tcEncodeA _ _ => (0x01, 10)
  | .tcDecodeB _ _ _ => (0x02, 4)
  | .tcEncodeB _ _ => (0x03, 10)
  | .scRead _ => (0x04, 2)
  | .scWriteThreshold _ _ _ => (0x05, 11)
  | .xmWrite _ _ => (0x20, 3)
  | .xmRead _ => (0x21, 2)
  | .xmInit => (0x22, 1)
  | .xmWriteB _ => (0x23, 2)
  | .xmSetRed _ => (0x24, 2)
  | .xmSetGreen _ => (0x25, 2)
  | .xmSetBacklight _ => (0x26, 2)
  | .xmAckInt => (0x27, 1)
  | .xmReadButtons => (0x28, 1)
  | .xmTestButton _ _ => (0x29, 3)
  | .lcdSend _ _ => (0x40, 3)
  | .lcdCommand _ => (0x41, 2)
  | .lcdData _ => (0x42, 2)
  | .lcdInit => (0x43, 1)
  | .lcdReset => (0x44, 1)
  | .lcdClear => (0x45, 1)
  | .lcdHome => (0x46, 1)
  | .lcdSetDisplay _ => (0x47, 2)
  | .lcdSetCursor _ => (0x48, 2)
  | .lcdSetBlink _ => (0x49, 2)
  | .lcdLeftToRight => (0x4A, 1)
  | .lcdRightToLeft => (0x4B, 1)
  | .lcdSetAutoscroll _ => (0x4C, 2)
  | .lcdScrollLeft => (0x4D, 1)
  | .lcdScrollRight => (0x4E, 1)
  | .lcdSetPos _ _ => (0x4F, 3)
  | .lcdMessage text => (0x50, 2 + text.length)
  | .lcdCreateChar _ bitmap => (0x51, 3 + bitmap.length)
  | .schedStart => (0x60, 1)
  | .schedWait => (0x61, 1)
  | .schedIterate => (0x62, 1)
  | .schedRestartDisplay => (0x63, 1)
  | .schedWake => (0x64, 1)
  | .schedStop => (0x65, 1)
  | .schedSnapshot => (0x66, 1)
  | .schedRun => (0x67, 1)

/-- The encoder writes the op code of the request's table row first, and as many bytes as the row says. -/
def Encoded.Statement (i : Instr) : Prop :=
  (encode i).head? = some (tableRow i).1 ∧ (encode i).length = (tableRow i).2

theorem Encoded.tcDecodeA (hi : Byte) (lo : Byte) (ext : Byte) : Encoded.Statement (.tcDecodeA hi lo ext) := ⟨rfl, rfl⟩
theorem Encoded.tcEncodeA (x : F64) (ext : Byte) : Encoded.Statement (.tcEncodeA x ext) := ⟨rfl, rfl⟩
theorem Encoded.tcDecodeB (hi : Byte) (lo : Byte) (res : Byte) : Encoded.Statement (.tcDecodeB hi lo res) := ⟨rfl, rfl⟩
theorem Encoded.tcEncodeB (x : F64) (res : Byte) : Encoded.Statement (.tcEncodeB x res) := ⟨rfl, rfl⟩
theorem Encoded.scRead (ch : Byte) : Encoded.Statement (.scRead ch) := ⟨rfl, rfl⟩
theorem Encoded.scWriteThreshold (ch : Byte) (which : Byte) (x : F64) : Encoded.Statement (.scWriteThreshold ch which x) := ⟨rfl, rfl⟩
theorem Encoded.xmWrite (reg : Byte) (v : Byte) : Encoded.Statement (.xmWrite reg v) := ⟨rfl, rfl⟩
theorem Encoded.xmRead (reg : Byte) : Encoded.Statement (.xmRead reg) := ⟨rfl, rfl⟩
theorem Encoded.xmInit : Encoded.Statement .xmInit := ⟨rfl, rfl⟩
theorem Encoded.xmWriteB (v : Byte) : Encoded.Statement (.xmWriteB v) := ⟨rfl, rfl⟩
theorem Encoded.xmSetRed (on : Byte) : Encoded.Statement (.xmSetRed on) := ⟨rfl, rfl⟩
theorem Encoded.xmSetGreen (on : Byte) : Encoded.Statement (.xmSetGreen on) := ⟨rfl, rfl⟩
theorem Encoded.xmSetBacklight (on : Byte) : Encoded.Statement (.xmSetBacklight on) := ⟨rfl, rfl⟩
theorem Encoded.xmAckInt : Encoded.Statement .xmAckInt := ⟨rfl, rfl⟩
theorem Encoded.xmReadButtons : Encoded.Statement .xmReadButtons := ⟨rfl, rfl⟩
theorem Encoded.xmTestButton (mask : Byte) (id : Byte) : Encoded.Statement (.xmTestButton mask id) := ⟨rfl, rfl⟩
theorem Encoded.lcdSend (b : Byte) (rs : Byte) : Encoded.Statement (.lcdSend b rs) := ⟨rfl, rfl⟩
theorem Encoded.lcdCommand (b : Byte) : Encoded.Statement (.lcdCommand b) := ⟨rfl, rfl⟩
theorem Encoded.lcdData (b : Byte) : Encoded.Statement (.lcdData b) := ⟨rfl, rfl⟩
theorem Encoded.lcdInit : Encoded.Statement .lcdInit := ⟨rfl, rfl⟩
theorem Encoded.lcdReset : Encoded.Statement .lcdReset := ⟨rfl, rfl⟩
theorem Encoded.lcdClear : Encoded.Statement .lcdClear := ⟨rfl, rfl⟩
theorem Encoded.lcdHome : Encoded.Statement .lcdHome := ⟨rfl, rfl⟩
theorem Encoded.lcdSetDisplay (on : Byte) : Encoded.Statement (.lcdSetDisplay on) := ⟨rfl, rfl⟩
theorem Encoded.lcdSetCursor (on : Byte) : Encoded.Statement (.lcdSetCursor on) := ⟨rfl, rfl⟩
theorem Encoded.lcdSetBlink (on : Byte) : Encoded.Statement (.lcdSetBlink on) := ⟨rfl, rfl⟩
theorem Encoded.lcdLeftToRight : Encoded.Statement .lcdLeftToRight := ⟨rfl, rfl⟩
theorem Encoded.lcdRightToLeft : Encoded.Statement .lcdRightToLeft := ⟨rfl, rfl⟩
theorem Encoded.lcdSetAutoscroll (on : Byte) : Encoded.Statement (.lcdSetAutoscroll on) := ⟨rfl, rfl⟩
theorem Encoded.lcdScrollLeft : Encoded.Statement .lcdScrollLeft := ⟨rfl, rfl⟩
theorem Encoded.lcdScrollRight : Encoded.Statement .lcdScrollRight := ⟨rfl, rfl⟩
theorem Encoded.lcdSetPos (col : Byte) (row : Byte) : Encoded.Statement (.lcdSetPos col row) := ⟨rfl, rfl⟩
theorem Encoded.lcdMessage (text : List Byte) : Encoded.Statement (.lcdMessage text) := ⟨rfl, by simp [encode, encodeBytes, tableRow]; omega⟩
theorem Encoded.lcdCreateChar (slot : Byte) (bitmap : List Byte) : Encoded.Statement (.lcdCreateChar slot bitmap) := ⟨rfl, by simp [encode, encodeBytes, tableRow]; omega⟩
theorem Encoded.schedStart : Encoded.Statement .schedStart := ⟨rfl, rfl⟩
theorem Encoded.schedWait : Encoded.Statement .schedWait := ⟨rfl, rfl⟩
theorem Encoded.schedIterate : Encoded.Statement .schedIterate := ⟨rfl, rfl⟩
theorem Encoded.schedRestartDisplay : Encoded.Statement .schedRestartDisplay := ⟨rfl, rfl⟩
theorem Encoded.schedWake : Encoded.Statement .schedWake := ⟨rfl, rfl⟩
theorem Encoded.schedStop : Encoded.Statement .schedStop := ⟨rfl, rfl⟩
theorem Encoded.schedSnapshot : Encoded.Statement .schedSnapshot := ⟨rfl, rfl⟩
theorem Encoded.schedRun : Encoded.Statement .schedRun := ⟨rfl, rfl⟩

end Sys2Proof.Laws
end

