-- ==== Sys2Proof/Laws/Sched.lean ====
section
/-! SUPPORT. What the scheduler's shared operations do, once each. -/

namespace Sys2Proof.Machine

/-- Everything one evaluation of the wait condition can do (43_scheduler.md rules R263 to R265). -/
theorem evalWait_eq (s : State) : (evalWait s).map (fun p => (p.1.code, p.2)) = waitOutcome s := by
  simp only [evalWait, arbitrate, waitOutcome, State.logRdy, State.dispRdy, State.irqRdy, State.wakeRdy,
    State.tmoRdy, decide_eq_true_eq]
  by_cases h1 : s.stop = true
  · simp [h1, Event.code]
  by_cases h2 : s.logDl ≤ s.now
  · simp [h1, h2, Event.code, drain, advanceDeadline, gridAfter]
  by_cases h3 : s.dispDl ≤ s.now
  · simp [h1, h2, h3, Event.code, drain, advanceDeadline, gridAfter]
  by_cases h4 : s.irqPend = true
  · simp [h1, h2, h3, h4, Event.code, drain]
  by_cases h5 : s.wake = true
  · simp [h1, h2, h3, h4, h5, Event.code, drain]
  by_cases h6 : s.waitStart + s.params.waitTimeout ≤ s.now
  · simp [h1, h2, h3, h4, h5, h6, Event.code]
  · simp [h1, h2, h3, h4, h5, h6]

theorem evalWait_none {s : State} (h : waitOutcome s = none) : evalWait s = none := by
  have := evalWait_eq s
  rw [h] at this
  exact Option.map_eq_none_iff.1 this

theorem evalWait_some {s b : State} {code : Byte} (h : waitOutcome s = some (code, b)) :
    ∃ ev, evalWait s = some (ev, b) ∧ ev.code = code := by
  have := evalWait_eq s
  rw [h] at this
  obtain ⟨⟨ev, t⟩, he, hp⟩ := Option.map_eq_some_iff.1 this
  cases hp
  exact ⟨ev, he, rfl⟩

/-- Everything the red-LED write of the sensor error path can do (rule R269). -/
theorem redLit_eq (s : State) :
    (match setRed true s with
     | .ok _ s2 => s2
     | .err e s2 => s2.emitDiag e .redLed) = s.redLit := by
  rcases setRed_cases true s with ⟨hx, hs⟩ | ⟨hx, hn, hs⟩ | ⟨hx, hn, hs⟩
  · simp only [hs, State.redLit, if_pos hx]
  · have hne : ¬ s.xmPresent = false := by rw [hx]; decide
    simp only [hs, State.redLit, if_neg hne, if_neg hn]
    rfl
  · have hne : ¬ s.xmPresent = false := by rw [hx]; decide
    simp only [hs, State.redLit, if_neg hne, if_pos hn]
    rfl

/-- Everything one channel's part of the sensor-read step can do (rule R269). -/
theorem pollSensor_eq (i : ChannelId) (o : Origin) (s : State) :
    pollSensor i o s = s.polled (s.channel i) o := by
  rcases readSensor_cases i s with ⟨h, hr⟩ | ⟨h, hr⟩
  · simp only [pollSensor, hr, State.polled, if_neg h]
  · have hg : ({ (s.exchangeFailed (pollOps (s.channel i))).emitDiag .bus o with err := true } : State) =
        s.pollFailed (s.channel i) o := rfl
    simp only [pollSensor, hr, State.polled, if_pos h, ← redLit_eq, hg]
    cases setRed true (s.pollFailed (s.channel i) o) <;> rfl

theorem redLit_temps (s : State) : s.redLit.ch1 = s.ch1 ∧ s.redLit.ts = s.ts := by
  have he : s.elapse.ch1 = s.ch1 ∧ s.elapse.ts = s.ts := by
    rw [elapse_eq s]
    exact ⟨rfl, rfl⟩
  simp only [State.redLit]
  split
  · exact ⟨rfl, rfl⟩
  · split
    · exact he
    · exact he

theorem polled_temps (c : Channel) (o : Origin) (s : State) :
    (s.polled c o).2.ch1 = s.ch1 ∧ (s.polled c o).2.ts = s.ts := by
  have he : s.elapse.ch1 = s.ch1 ∧ s.elapse.ts = s.ts := by
    rw [elapse_eq s]
    exact ⟨rfl, rfl⟩
  simp only [State.polled]
  split
  · obtain ⟨h1, h2⟩ := redLit_temps (s.pollFailed c o)
    exact ⟨h1.trans he.1, h2.trans he.2⟩
  · exact he

/-- Everything the sensor-read step can do (rules R269, R270). -/
theorem readSensors_eq (s : State) : readSensors s = s.sensorsRead := by
  simp only [readSensors, State.sensorsRead, pollSensor_eq, State.publish]
  have hc0 : s.channel .inside = s.ch0 := rfl
  rw [hc0]
  have hc1 : (s.polled s.ch0 .sensor0).2.channel .outside = s.ch1 := (polled_temps s.ch0 .sensor0 s).1
  rw [hc1]
  have hts : ((s.polled s.ch0 .sensor0).2.polled s.ch1 .sensor1).2.ts = s.ts :=
    ((polled_temps _ _ _).2).trans (polled_temps _ _ _).2
  rw [hts]
  generalize ((s.polled s.ch0 .sensor0).2.polled s.ch1 .sensor1) = q
  generalize (s.polled s.ch0 .sensor0).1 = a
  obtain ⟨b, q⟩ := q
  cases a <;> cases b <;> rfl

/-- Everything a step with no LOOP request does (70_reset_and_hazards.md rules R341, R358). -/
theorem idleStep_eq (s : State) : idleStep s = { s.elapse with gap := false } :=
  (elapse_envFrom s { s with gap := false } rfl).trans
    (congrArg (fun t : State => { t with gap := false }) (elapse_eq s).symm)

/-- Everything the end of a pass of SCHED.RUN does, beside the same end of SCHED.ITERATE (rule R279). -/
theorem afterWaitOf_run (ev : Event) (s : State) :
    ∃ (t : State) (code : Byte), afterWaitOf .iterate ev s = t.answered code ∧
      afterWaitOf .run ev s =
        if t.phase = .running then { t with loop := .running } else ({ t with loop := .idle } : State).respond [0] :=
  ⟨(afterWait ev s).2, (afterWait ev s).1.code, rfl, rfl⟩

end Sys2Proof.Machine
end

