-- ==== Sys2Proof/Tests/Slice0.lean ====
section
/-! SUPPORT. Tests with results from the spec (95_test_vectors.md and the examples of the rules), and a witness
for the hypotheses of every statement that has some. -/

namespace Sys2Proof.Tests

open Sys2Proof.Machine

/-! ## Helpers -/

/-- A transaction that succeeds with these bytes, in no time. -/
def ack (bytes : List Byte) : Draw := { dt := 0, acts := [], outcome := .success bytes }

/-- A transaction that fails. -/
def nak : Draw := { dt := 0, acts := [], outcome := .busError }

/-- `n` transactions that succeed and read nothing. -/
def acks (n : Nat) : List Draw := List.replicate n (ack [])

/-- The parameters of 95_test_vectors.md section 5. -/
def periods : Params :=
  { logPeriod := 60000, displayPeriod := 5000, waitTimeout := 1000, encTop := .saturate, unknownText := [0x3F] }

/-- Reset at `NOW` = 1000 with those parameters and these draws. -/
def fresh (env : List Draw) : State := { State.reset with now := 1000, params := periods, env := env }

/-- The same with both units present. -/
def present (env : List Draw) : State := { fresh env with xmPresent := true, lcdPresent := true }

/-- After SCHED.START at 1000 with readings 25.0 and 10.0, nothing due. -/
def started (env : List Draw) : State :=
  { fresh env with
    phase := .running, xmPresent := true, logDl := 61000, dispDl := 6000
    temp0 := some { sixteenths := 400 }, temp1 := some { sixteenths := 160 }, ts := some 1000
    pub := { temp0 := some { sixteenths := 400 }, temp1 := some { sixteenths := 160 }, ts := some 1000 } }

/-- The state after a request, if it ends in one. -/
def after (i : Instr) (s : State) : Option State :=
  match exec i s with
  | .next t => some t
  | .fault _ => none
  | .refused _ => none

/-- The state after a step, if it ends in one. -/
def stepped (s : State) : Option State :=
  match step s with
  | .next t => some t
  | .fault _ => none
  | .refused _ => none

/-- The bytes of the newest response. -/
def answer (i : Instr) (s : State) : Option (List Byte) :=
  (after i s).bind fun t => t.responses.getLast?.map (·.2)

/-- The value written in each register write of the trace. -/
def written (i : Instr) (s : State) : Option (List Byte) :=
  (after i s).map fun t => t.trace.filterMap fun r =>
    match r.ops with
    | [.writeBytes _ [_, v]] => some v
    | _ => none

/-! ## Well-formedness: a byte string operand of 256 bytes is refused -/

theorem test_wf_text_255 : (Instr.lcdMessage (List.replicate 255 0x41)).wf = true := by
  simp only [Instr.wf, fitsLengthByte, List.length_replicate]; decide
theorem test_wf_text_256 : (Instr.lcdMessage (List.replicate 256 0x41)).wf = false := by
  simp only [Instr.wf, fitsLengthByte, List.length_replicate]; decide
theorem test_wf_bitmap_255 : (Instr.lcdCreateChar 0 (List.replicate 255 0x1F)).wf = true := by
  simp only [Instr.wf, fitsLengthByte, List.length_replicate]; decide
theorem test_wf_bitmap_256 : (Instr.lcdCreateChar 0 (List.replicate 256 0x1F)).wf = false := by
  simp only [Instr.wf, fitsLengthByte, List.length_replicate]; decide

/-! ## Decoding: a word for every constructor, written out from 30_encoding.md rules R92 and R93 -/

theorem test_decode_tc :
    decode [0x00, 0x19, 0x00, 0x01] = .ok (.tcDecodeA 0x19 0x00 0x01, []) ∧
    decode [0x01, 0x40, 0x60, 0, 0, 0, 0, 0, 0x07, 0x01] = .ok (.tcEncodeA 0x4060000000000007 0x01, []) ∧
    decode [0x02, 0x19, 0xC0, 0x0A] = .ok (.tcDecodeB 0x19 0xC0 0x0A, []) ∧
    decode [0x03, 0xC0, 0x39, 0, 0, 0, 0, 0, 0, 0x09] = .ok (.tcEncodeB 0xC039000000000000 0x09, []) ∧
    decode [0x04, 0x01] = .ok (.scRead 0x01, []) ∧
    decode [0x05, 0x00, 0x01, 0x40, 0x3E, 0, 0, 0, 0, 0, 0] =
      .ok (.scWriteThreshold 0x00 0x01 0x403E000000000000, []) := by decide

theorem test_decode_xm :
    decode [0x20, 0x13, 0x08] = .ok (.xmWrite 0x13 0x08, []) ∧ decode [0x21, 0x12] = .ok (.xmRead 0x12, []) ∧
    decode [0x22] = .ok (.xmInit, []) ∧ decode [0x23, 0x01] = .ok (.xmWriteB 0x01, []) ∧
    decode [0x24, 0x01] = .ok (.xmSetRed 0x01, []) ∧ decode [0x25, 0x00] = .ok (.xmSetGreen 0x00, []) ∧
    decode [0x26, 0x01] = .ok (.xmSetBacklight 0x01, []) ∧ decode [0x27] = .ok (.xmAckInt, []) ∧
    decode [0x28] = .ok (.xmReadButtons, []) ∧
    decode [0x29, 0x09, 0x03] = .ok (.xmTestButton 0x09 0x03, []) := by decide

theorem test_decode_lcd :
    decode [0x40, 0x41, 0x01] = .ok (.lcdSend 0x41 0x01, []) ∧
    decode [0x41, 0x28] = .ok (.lcdCommand 0x28, []) ∧ decode [0x42, 0x30] = .ok (.lcdData 0x30, []) ∧
    decode [0x43] = .ok (.lcdInit, []) ∧ decode [0x44] = .ok (.lcdReset, []) ∧
    decode [0x45] = .ok (.lcdClear, []) ∧ decode [0x46] = .ok (.lcdHome, []) ∧
    decode [0x47, 0x00] = .ok (.lcdSetDisplay 0x00, []) := by decide

theorem test_decode_lcd_settings :
    decode [0x48, 0x01] = .ok (.lcdSetCursor 0x01, []) ∧
    decode [0x49, 0x01] = .ok (.lcdSetBlink 0x01, []) ∧ decode [0x4A] = .ok (.lcdLeftToRight, []) ∧
    decode [0x4B] = .ok (.lcdRightToLeft, []) ∧ decode [0x4C, 0x01] = .ok (.lcdSetAutoscroll 0x01, []) := by decide

theorem test_decode_lcd_text :
    decode [0x4D] = .ok (.lcdScrollLeft, []) ∧ decode [0x4E] = .ok (.lcdScrollRight, []) ∧
    decode [0x4F, 0x03, 0xFF] = .ok (.lcdSetPos 0x03 0xFF, []) ∧
    decode [0x50, 0x04, 0x48, 0x69, 0x0A, 0x58] = .ok (.lcdMessage [0x48, 0x69, 0x0A, 0x58], []) ∧
    decode [0x51, 0x01, 0x01, 0x1F] = .ok (.lcdCreateChar 0x01 [0x1F], []) := by decide

theorem test_decode_sched :
    decode [0x60] = .ok (.schedStart, []) ∧ decode [0x61] = .ok (.schedWait, []) ∧
    decode [0x62] = .ok (.schedIterate, []) ∧ decode [0x63] = .ok (.schedRestartDisplay, []) ∧
    decode [0x64] = .ok (.schedWake, []) ∧ decode [0x65] = .ok (.schedStop, []) ∧
    decode [0x66] = .ok (.schedSnapshot, []) ∧ decode [0x67] = .ok (.schedRun, []) := by decide

/-- The refusals of 95_test_vectors.md section 6. -/
theorem test_decode_refused :
    decode [0x06] = .error (.reserved 0x06) ∧ decode [0xFF] = .error (.reserved 0xFF) ∧
    decode [0x00, 0x19, 0x00] = .error (.short 0x00) := by decide

/-- The text of P2 (95_test_vectors.md section 7), numbered as the opcode table numbers bits. -/
theorem test_table_word : decodeTableWord 24 0xFF034F = some (.lcdSetPos 0x03 0xFF) := by decide

/-! ## U1 (95_test_vectors.md section 2) -/

theorem test_decode_a :
    answer (.tcDecodeA 0xE7 0x00 0) (fresh []) =
      some [0, 0xFE, 0x70, 0xC0, 0x39, 0, 0, 0, 0, 0, 0] := by decide
theorem test_decode_a_extended :
    decodeA true 0x80 0x00 = { raw := -4096, value := { sixteenths := -4096 } } := by decide
theorem test_encode_a : answer (.tcEncodeA 0xBFB999999999999A 0) (fresh []) = some [0, 0xFF, 0xF0] := by decide
theorem test_encode_a_top :
    encodeA .saturate false 0x4060000000000000 = some (0x7F, 0xF0) ∧
    encodeA .wrap false 0x4060000000000000 = some (0x80, 0x00) ∧
    encodeA .saturate true 0x7FF0000000000000 = some (0x4B, 0x01) ∧
    encodeA .saturate false 0x7FF8000000000000 = none := by decide
theorem test_decode_b :
    answer (.tcDecodeB 0x19 0xC0 10) (fresh []) = some [0, 0x00, 0x67, 0x40, 0x39, 0xC0, 0, 0, 0, 0, 0] := by decide
theorem test_decode_b_range : answer (.tcDecodeB 0x19 0x00 13) (fresh []) = some [2] := by decide
theorem test_encode_b : answer (.tcEncodeB 0xC039B33333333333 9) (fresh []) = some [0, 0xE6, 0x80] := by decide
theorem test_encode_b_top : encodeB .saturate .r9 0x4060000000000000 = some (0x7F, 0x80) := by decide
theorem test_sc_read :
    answer (.scRead 1) (fresh [ack [0xE7, 0x00]]) =
      some [0, 0xE7, 0x00, 0xFE, 0x70, 0xC0, 0x39, 0, 0, 0, 0, 0, 0] := by decide
theorem test_sc_read_failed : answer (.scRead 1) (fresh [nak]) = some [1] := by decide
theorem test_sc_write_threshold :
    (after (.scWriteThreshold 0 1 0x403E000000000000) (fresh [ack []])).map (·.trace) =
      some [{ ops := [.writeBytes 0x48 [0x03, 0x1E, 0x00]], outcome := some [] }] := by decide
theorem test_sc_write_threshold_which :
    answer (.scWriteThreshold 0 2 0x403E000000000000) (fresh [ack []]) = some [2] := by decide

/-! ## U2 (95_test_vectors.md section 3) -/

theorem test_xm_write :
    (after (.xmWrite 0x15 0x41) (fresh [ack []])).map (·.cacheB) = some 0x41 := by decide
theorem test_xm_write_range : answer (.xmWrite 0x16 0x00) (fresh [ack []]) = some [2] := by decide
theorem test_xm_read : answer (.xmRead 0x00) (fresh [ack [0x3F]]) = some [0, 0x3F] := by decide
theorem test_xm_init :
    (after .xmInit (fresh (acks 6))).map (fun t => (t.xmPresent, t.shadow)) =
      some (true, { iodira := 0x3F, iodirb := 0x00, ipola := 0x3F, ipolb := 0x00,
                    gpintena := 0x1F, gpintenb := 0x00, gppua := 0x3F, gppub := 0x00 }) := by decide
theorem test_xm_init_third_fails :
    (after .xmInit (fresh [ack [], ack [], nak])).map (fun t => (t.xmPresent, t.shadow.iodirb, t.shadow.ipola)) =
      some (false, 0x00, 0x00) := by decide
theorem test_xm_write_b : (after (.xmWriteB 0x01) (present [ack []])).map (·.cacheB) = some 0x01 := by decide
theorem test_xm_set_red :
    (after (.xmSetRed 1) { present [ack []] with cacheB := 0x02 }).map (·.cacheB) = some 0x03 := by decide
theorem test_xm_set_red_bool : answer (.xmSetRed 2) (fresh []) = some [2] := by decide
theorem test_xm_set_green :
    (after (.xmSetGreen 1) { present [ack []] with cacheA := 0x40 }).map (·.cacheA) = some 0xC0 := by decide
theorem test_xm_set_backlight :
    (after (.xmSetBacklight 0) { present [ack []] with cacheA := 0x80 }).map (·.cacheA) = some 0xC0 := by decide
theorem test_xm_ack_int : answer .xmAckInt (present [ack [0x10]]) = some [0, 0x10] := by decide
theorem test_xm_ack_int_absent : answer .xmAckInt (fresh []) = some [3] := by decide
theorem test_xm_read_buttons : answer .xmReadButtons (present [ack [0xC9]]) = some [0, 0x09] := by decide
theorem test_xm_test_button :
    answer (.xmTestButton 0x20 5) (fresh []) = some [0, 1] ∧
    answer (.xmTestButton 0x3F 6) (fresh []) = some [2] := by decide

/-! ## U3 (95_test_vectors.md section 4) -/

theorem test_lcd_send :
    written (.lcdSend 0x01 0) (present (acks 4)) = some [0x20, 0x00, 0x30, 0x10] := by decide
theorem test_lcd_command :
    written (.lcdCommand 0x28) (present (acks 4)) = some [0x28, 0x08, 0x22, 0x02] := by decide
theorem test_lcd_command_settles : (after (.lcdCommand 0x03) (present (acks 5))).map (·.now) = some 1015 := by decide
theorem test_lcd_data_red :
    written (.lcdData 0x41) { present (acks 4) with cacheB := 0x01 } = some [0xA5, 0x85, 0xB1, 0x91] := by decide
theorem test_lcd_init_absent : answer .lcdInit (fresh []) = some [3] := by decide
theorem test_lcd_init :
    (after .lcdInit (present (acks 30))).map (fun t => (t.lcdPresent, t.trace.length, t.now)) =
      some (true, 28, 1030) := by decide
theorem test_lcd_reset :
    written .lcdReset { present (acks 18) with dctrl := 0, entry := 0 } =
      some [0x20, 0x00, 0x26, 0x06, 0x20, 0x00, 0x2C, 0x0C, 0x20, 0x00, 0x30, 0x10, 0x20, 0x00, 0x28, 0x08] := by
  decide
theorem test_lcd_clear : written .lcdClear (present (acks 5)) = some [0x20, 0x00, 0x30, 0x10] := by decide
theorem test_lcd_home : written .lcdHome (present (acks 5)) = some [0x20, 0x00, 0x28, 0x08] := by decide
theorem test_lcd_set_display :
    written (.lcdSetDisplay 0) (present (acks 4)) = some [0x20, 0x00, 0x22, 0x02] := by decide
theorem test_lcd_set_cursor :
    (after (.lcdSetCursor 1) { present (nak :: acks 4) with dctrl := 0 }).map (·.dctrl) = some 0b010 := by decide
theorem test_lcd_set_blink :
    written (.lcdSetBlink 1) (present (acks 4)) = some [0x20, 0x00, 0x36, 0x16] := by decide
theorem test_lcd_left_to_right :
    (after .lcdLeftToRight { present (acks 4) with entry := 0 }).map (·.entry) = some 0b10 := by decide
theorem test_lcd_right_to_left :
    (after .lcdRightToLeft (present (acks 4))).map (·.entry) = some 0b00 := by decide
theorem test_lcd_set_autoscroll :
    (after (.lcdSetAutoscroll 1) (present (acks 4))).map (·.entry) = some 0b11 := by decide
theorem test_lcd_scroll_left : written .lcdScrollLeft (present (acks 4)) = some [0x30, 0x10, 0x22, 0x02] := by decide
theorem test_lcd_scroll_right :
    written .lcdScrollRight (present (acks 4)) = some [0x30, 0x10, 0x26, 0x06] := by decide
theorem test_lcd_set_pos : written (.lcdSetPos 3 3) (present (acks 4)) = some [0x26, 0x06, 0x38, 0x18] := by decide
theorem test_lcd_set_pos_edges :
    written (.lcdSetPos 0x3F 1) (present (acks 4)) = some [0x3E, 0x1E, 0x3E, 0x1E] ∧
    answer (.lcdSetPos 0x40 1) (present (acks 4)) = some [2] ∧
    answer (.lcdSetPos 0xFF 0) (fresh []) = some [0] := by decide
theorem test_lcd_message :
    written (.lcdMessage [0x48, 0x0A]) (present (acks 8)) =
      some [0xA4, 0x84, 0xA2, 0x82, 0x26, 0x06, 0x20, 0x00] := by decide
theorem test_lcd_create_char :
    written (.lcdCreateChar 1 [0x1F]) { present (acks 8) with cacheB := 0x03 } =
      some [0x25, 0x05, 0x23, 0x03, 0xB1, 0x91, 0xBF, 0x9F] := by decide
theorem test_lcd_create_char_slot : answer (.lcdCreateChar 8 [0x00]) (present (acks 8)) = some [2] := by decide

/-! ## U4 (95_test_vectors.md section 5) -/

theorem test_sched_start_fatal :
    (after .schedStart (fresh [nak, nak])).map (fun t => (t.phase, t.diag.length, t.trace.length)) =
      some (.fatal, 2, 2) := by decide
theorem test_sched_start_alone :
    (after .schedStart (fresh [nak, ack [0x19, 0x00], ack [0x0A, 0x00]])).map
        (fun t => (t.phase, t.pub, t.logDl)) =
      some (.running, { temp0 := some { sixteenths := 400 }, temp1 := some { sixteenths := 160 },
                        ts := some 1000 }, 61000) := by decide
theorem test_sched_wait_order :
    (after .schedWait { started [] with now := 70000, dispDl := 66000, irqPend := true, wake := true }).map
        (fun t => (t.logDl, t.dispDl, t.irqPend, t.wake)) = some (121000, 66000, true, true) := by decide
theorem test_sched_iterate_wake :
    (after .schedIterate { started (acks 4) with wake := true }).map
        (fun t => (t.wake, t.trace.length, t.responses)) = some (false, 2, [(.loop, [0, 3])]) := by decide
theorem test_sched_iterate_left :
    (after .schedIterate { started [ack [], ack [], ack [], ack [], ack [0x10], ack [0x10]] with
        irqPend := true }).map (fun t => (t.fmt, t.dispDl, t.trace.length)) =
      some (.celsius, 1000, 4) := by decide
theorem test_sched_restart_display :
    (after .schedRestartDisplay { started [] with now := 5000 }).map (·.dispDl) = some 5000 := by decide
theorem test_sched_wake : (after .schedWake (fresh [])).map (·.wake) = some true := by decide
theorem test_sched_stop : (after .schedStop (fresh [])).map (·.stop) = some true := by decide
theorem test_sched_snapshot :
    answer .schedSnapshot (started []) =
      some ([0, 7] ++ [0x40, 0x39, 0, 0, 0, 0, 0, 0] ++ [0x40, 0x24, 0, 0, 0, 0, 0, 0] ++
        [0, 0, 0, 0, 0, 0, 0x03, 0xE8]) := by decide
theorem test_sched_run_stops :
    (after .schedRun { started [] with stop := true }).map (fun t => (t.phase, t.responses)) =
      some (.stopped, [(.loop, [0])]) := by decide
theorem test_step_runs_req :
    (stepped { started [] with reqPort := [0x65] }).map (fun t => (t.stop, t.responses)) =
      some (true, [(.req, [0])]) := by decide
/-- XM.TEST_BUTTON of P4's kind, as the first request after reset. -/
theorem test_step_fetch_word :
    (stepped (State.reset.withFetchWord 24 0x030929)).map (·.responses) = some [(.loop, [0, 1])] := by decide
theorem test_step_blocked_wait :
    (stepped { started [{ dt := 400, acts := [.request .req [0x64]], outcome := .busError }] with
        loop := .waiting .wait, waitStart := 1000 }).map (fun t => (t.now, t.responses)) =
      some (1400, [(.req, [0]), (.loop, [0, 3])]) := by decide
/-- Between two queued requests of LOOP, REQ stops the machine and the line falls (43_scheduler.md R260, R358). -/
theorem test_step_between_requests :
    (((stepped { started [{ dt := 3, acts := [.line false, .request .req [0x65]], outcome := .busError }] with
        hostPort := [0x61, 0x61], logDl := 1000, dispDl := 1000 }).bind stepped).bind stepped).map
        (fun t => (t.now, t.irqPend, t.responses)) =
      some (1003, true, [(.loop, [0, 0]), (.req, [0]), (.loop, [0, 5])]) := by decide
/-- Between two passes of SCHED.RUN, REQ stops the machine before the first stop check (R268, R279). -/
theorem test_step_run_stops_before_a_pass :
    (stepped { started [{ dt := 3, acts := [.request .req [0x66, 0x65]], outcome := .busError }] with
        loop := .running, waitStart := 500 }).map (fun t => (t.now, t.phase, t.waitStart, t.loop)) =
      some (1000, .stopped, 500, .idle) := by decide
/-- The table of 43_scheduler.md R274: button ids and format codes. -/
theorem test_format_codes :
    ([Button.select, .up, .down, .left, .right].map fun b => (b.id, b.format.code)) =
      [(0, 0), (3, 1), (2, 2), (4, 3), (1, 4)] := by decide
theorem test_timer_grid : gridAfter 1000 5000 23500 = 26000 ∧ gridAfter 0 3 7 = 9 := by decide

/-! ## Witnesses: for every statement with hypotheses, concrete states and operands that meet them, each clause
at a boundary of its range -/

/-- A device that answers `n` transactions and fails the next. -/
def failsAfter (n : Nat) : State := present (acks n ++ [nak])

/-- Time passes and nothing else happens. -/
def pause (ms : Nat) : Draw := { dt := ms, acts := [], outcome := .busError }

/-- SCHED.ITERATE blocked since 1000. -/
def blocked (w : Waiter) (env : List Draw) : State := { started env with loop := .waiting w, waitStart := 1000 }

theorem test_premises_DecodeEncodeRoundTrip :
    (Instr.lcdMessage []).wf = true ∧ (Instr.lcdCreateChar 0xFF (List.replicate 255 0x00)).wf = true := by
  simp only [Instr.wf, fitsLengthByte, List.length_replicate]; decide

theorem test_premises_DecodeReadsOnlyEncodings :
    decode [0x50, 0x00, 0x22] = .ok (.lcdMessage [], [0x22]) ∧
    decode [0x51, 0x00, 0x01, 0x1F] = .ok (.lcdCreateChar 0x00 [0x1F], []) := by decide

theorem test_premises_ReservedOpCodesRefused :
    (∀ op ∈ ([0x06, 0x1F, 0x2A, 0x3F, 0x52, 0x5F, 0x68, 0x7F, 0x80, 0xFF] : List Byte), reservedOpCode op) ∧
    ∀ op ∈ ([0x00, 0x05, 0x20, 0x29, 0x40, 0x51, 0x60, 0x67] : List Byte), ¬ reservedOpCode op := by
  unfold reservedOpCode; decide

theorem test_premises_ReservedOpCodesRefused_ports (op : Byte) :
    ({ fresh [] with hostPort := [op, 0x22] } : State).nextBytes [op, 0x22] ∧
    ({ started [] with reqPort := [op], loop := .running } : State).nextBytes [op] :=
  ⟨Or.inr ⟨rfl, rfl, rfl, rfl⟩, Or.inl rfl⟩

theorem test_premises_ShortAndForeignRequestsRefused :
    ((Instr.lcdMessage [0x48, 0x69]).wf = true ∧ [0x50, 0x02, 0x48] <+: encode (.lcdMessage [0x48, 0x69]) ∧
      [0x50, 0x02, 0x48].length < (encode (.lcdMessage [0x48, 0x69])).length ∧
      ({ fresh [] with hostPort := [0x50, 0x02, 0x48] } : State).nextBytes [0x50, 0x02, 0x48]) ∧
    ([0x04] <+: encode (.scRead 0x01) ∧
      ({ started [] with reqPort := [0x04], loop := .running } : State).nextBytes [0x04]) ∧
    (encode .schedRestartDisplay = 0x63 :: [] ∧ Instr.schedRestartDisplay ≠ .schedWake ∧
      ({ started [] with reqPort := [0x63, 0x64] } : State).reqPort = 0x63 :: [] ++ [0x64]) := by
  unfold State.nextBytes; decide

theorem test_premises_StepRunsTheDecodedRequest :
    decode ({ fresh [] with hostPort := [0x22, 0x04] } : State).hostPort = .ok (.xmInit, [0x04]) ∧
    (fresh []).reqPort = [] ∧ (fresh []).loop = .idle ∧ (fresh []).gap = false ∧
    decode ({ started [] with reqPort := [0x66], loop := .running } : State).reqPort = .ok (.schedSnapshot, []) := by
  decide

theorem test_premises_StepsWithoutRequest_blocks :
    (started []).phase = .running ∧ waitOutcome { started [] with waitStart := (started []).now } = none ∧
    waitOutcome (started [pause 7]).waitStarted = none ∧
    (blocked .wait [pause 999]).blockedIn .wait ∧ waitOutcome (blocked .wait [pause 999]).waitResumed = none ∧
    (blocked .iterate [pause 999]).blockedIn .iterate ∧
      waitOutcome (blocked .iterate [pause 999]).waitResumed = none := by
  refine ⟨by decide, by decide, by decide, ⟨by decide, by decide⟩, by decide, ⟨by decide, by decide⟩, by decide⟩

theorem test_premises_StepsWithoutRequest_goes_on :
    (waitOutcome (blocked .wait [pause 1000]).waitResumed).map (·.1) = some 4 ∧
    (started []).hostPort = [] ∧ (started []).loop = .idle ∧ ({ started [] with gap := true } : State).gap = true ∧
    ({ started [] with loop := .running } : State).loop = .running := by decide

/-- A step that ends in a next state, from a state of the invariant. -/
theorem test_premises_StepKeepsInvariant :
    ({ started [] with reqPort := [0x65] } : State).Inv ∧
    (stepped { started [] with reqPort := [0x65] }).isSome = true := by
  refine ⟨?_, by decide⟩
  constructor <;> first
    | decide
    | simp [started, fresh, tempInRange]

theorem test_premises_StepKeepsCacheLaw :
    ({ fresh [ack []] with cacheB := 0x41, trace := [wroteRecord 0x15 0x41], hostPort := [0x20, 0x00, 0x3F] } :
      State).CacheLaw ∧
    (stepped { fresh [ack []] with
      cacheB := 0x41, trace := [wroteRecord 0x15 0x41], hostPort := [0x20, 0x00, 0x3F] }).map
        (fun t => (t.cacheB, t.shadow.iodira)) = some (0x41, 0x3F) := by
  refine ⟨?_, by decide⟩
  constructor <;> decide

theorem test_premises_StepIsMonotone :
    (stepped { started [ack [0x19, 0x00]] with hostPort := [0x04, 0x00] }).isSome = true := by decide

theorem test_premises_StickyState :
    ({ started [] with phase := .stopped, stop := true, err := true, reqPort := [0x64] } : State).Inv ∧
    (stepped { started [] with phase := .stopped, stop := true, err := true, reqPort := [0x64] }).isSome = true := by
  refine ⟨?_, by decide⟩
  constructor <;> first
    | decide
    | simp [started, fresh, tempInRange]

theorem test_premises_StickyState_fatal :
    ({ fresh [] with phase := .fatal, dispDl := 6000, hostPort := [0x67] } : State).Inv ∧
    (stepped { fresh [] with phase := .fatal, dispDl := 6000, hostPort := [0x67] }).isSome = true := by
  refine ⟨?_, by decide⟩
  constructor <;> first
    | decide
    | simp [fresh, State.reset]

theorem test_premises_OnlyTheWritersWrite :
    (after (.lcdSetAutoscroll 1) (present (acks 4))).isSome = true ∧
    (after .schedStart (fresh (acks 38))).isSome = true ∧
    (after .schedWait { started [] with wake := true }).map (fun t => (t.env, t.drawn)) = some ([], 0) := by decide

theorem test_premises_ConfigurationErrors (s : State) :
    configurationCause (.tcDecodeA 0 0 2) s ∧ ¬ configurationCause (.tcDecodeA 0 0 1) s ∧
    configurationCause (.tcEncodeB 0x7FF8000000000000 9) s ∧ ¬ configurationCause (.tcEncodeB 0 12) s ∧
    configurationCause (.tcDecodeB 0 0 8) s ∧ configurationCause (.tcDecodeB 0 0 13) s ∧
    configurationCause (.scRead 2) s ∧ configurationCause (.scWriteThreshold 1 2 0) s ∧
    configurationCause (.xmWrite 0x16 0) s ∧ ¬ configurationCause (.xmRead 0x15) s ∧
    configurationCause (.xmSetRed 2) s ∧ configurationCause (.xmTestButton 0 6) s ∧
    configurationCause (.lcdSend 0 2) s := by
  simp [configurationCause, isNaN]

theorem test_premises_ConfigurationErrors_state :
    configurationCause (.lcdSetPos 0xFF 0) (present []) ∧ configurationCause (.lcdSetPos 0x40 1) (present []) ∧
    ¬ configurationCause (.lcdSetPos 0x3F 1) (present []) ∧
    configurationCause (.lcdCreateChar 8 []) (present []) ∧ ¬ configurationCause (.lcdCreateChar 7 []) (present []) ∧
    configurationCause .schedStart (started []) ∧ configurationCause .schedWait (fresh []) ∧
    configurationCause .schedRun { fresh [] with phase := .fatal } := by
  unfold configurationCause; decide

theorem test_premises_BusErrorAndHardwareAbsentHaveTheirCauses :
    (after .xmAckInt (present [nak])).map (newResponse (present [nak])) = some (some (.loop, [1])) ∧
    (after .xmInit (fresh [nak])).map (newResponse (fresh [nak])) = some (some (.loop, [3])) ∧
    (after .lcdInit (fresh [])).map (newResponse (fresh [])) = some (some (.loop, [3])) ∧
    (after .xmReadButtons (fresh [])).map (newResponse (fresh [])) = some (some (.loop, [3])) ∧
    (after .schedRun (fresh [nak, nak])).map (newResponse (fresh [nak, nak])) = some (some (.loop, [3])) := by decide

theorem test_premises_SnapshotResult :
    (∀ v, ({ started [] with pub := { temp0 := some { sixteenths := -4096 }, temp1 := none, ts := none } } :
      State).pub.temp0 = some v → tempInRange v) ∧
    ∀ v, (started []).pub.temp1 = some v → tempInRange v := by
  simp [started, tempInRange]

theorem test_premises_RequestServerTouchesOnlyItsFlags :
    ({ started [] with reqPort := [0x64] } : State).reqPort ≠ [] ∧
    (stepped { started [] with reqPort := [0x64] }).isSome = true ∧
    (after .schedStop { started [] with agent := .req }).isSome = true := by decide

theorem test_premises_Codec :
    (1 < (2 : Byte).toNat ∧ (1 : Byte).toNat ≤ 1) ∧ ((8 : Byte).toNat < 9 ∧ 12 < (13 : Byte).toNat) ∧
    isNaN 0x7FF0000000000001 ∧ ¬ isNaN 0x7FF0000000000000 ∧ ¬ isNaN 0x8000000000000000 := by
  unfold isNaN; decide

theorem test_premises_TcEncodeAResult :
    clampedValue (-55) 128 (f64Value 0xFFF0000000000000) = some (-55) ∧
    clampedValue (-55) 150 (f64Value 0x7FF0000000000000) = some 150 ∧
    ∃ xc, clampedValue (-55) 128 (f64Value 0xBFB999999999999A) = some xc := ⟨rfl, rfl, _, rfl⟩

theorem test_premises_TcEncodeBResult :
    9 ≤ (9 : Byte).toNat ∧ (12 : Byte).toNat ≤ 12 ∧
    ∃ xc, clampedValue (-55) 128 (f64Value 0x4060000000000000) = some xc := ⟨by decide, by decide, _, rfl⟩

theorem test_premises_TemperatureRoundTripA :
    f64Value 0xC04B800000000000 = .finite { mant := -55 * 2 ^ 47, exp := 47 } ∧
    f64Value 0x4060000000000000 = .finite { mant := 128 * 2 ^ 45, exp := 45 } ∧
    f64Value 0x4062C00000000000 = .finite { mant := 150 * 2 ^ 45, exp := 45 } ∧
    dyadicRat { mant := -55 * 2 ^ 47, exp := 47 } = -55 ∧ dyadicRat { mant := 128 * 2 ^ 45, exp := 45 } = highA false ∧
    dyadicRat { mant := 150 * 2 ^ 45, exp := 45 } = highA true := by
  refine ⟨by decide, by decide, by decide, ?_, ?_, ?_⟩ <;> norm_num [dyadicRat, highA]

theorem test_premises_BytePairRoundTripA :
    exec (.tcDecodeA 0xE7 0x00 (boolByte false)) (fresh []) =
      .next ((fresh []).respond (0 :: (be16 (-400) ++ be64 0xC039000000000000))) := by rfl

theorem test_premises_RoundTripsB : isF64Of 0x4039C00000000000 (decodeB .r10 0x19 0xC0).value.celsius := by
  refine ⟨⟨{ mant := 103 * 2 ^ 46, exp := 48 }, by decide, ?_⟩, by decide⟩
  have h : (decodeB .r10 0x19 0xC0).value.sixteenths = 412 := by decide
  norm_num [dyadicRat, Temp.celsius, h]

theorem test_premises_EncodeIsMonotone :
    encodeA .saturate true 0xFFF0000000000000 = some (0xE4, 0x81) ∧
    encodeA .saturate true 0x4062C00000000000 = some (0x4B, 0x01) ∧
    encodeB .saturate .r9 0x7FF0000000000000 = some (0x7F, 0x80) ∧
    numericLe (f64Value 0xFFF0000000000000) (f64Value 0x4062C00000000000) :=
  ⟨by decide, by decide, by decide, trivial⟩

theorem test_premises_DecodedValuesAreExact :
    tempInRange { sixteenths := -4096 } ∧ isF64Of 0xC070000000000000 (Temp.celsius { sixteenths := -4096 }) := by
  refine ⟨by unfold tempInRange; decide, ⟨{ mant := -256 * 2 ^ 44, exp := 44 }, by decide, ?_⟩, by decide⟩
  norm_num [dyadicRat, Temp.celsius]

/-- An exchange that succeeds, one that fails, and units present and absent: the hypotheses of the statements
about SC, XM and LCD requests. -/
theorem test_premises_Exchanges :
    (fresh [nak]).nextDraw.outcome = .busError ∧ (fresh [ack [0x19, 0x00]]).nextDraw.outcome ≠ .busError ∧
    (0x15 < (0x16 : Byte).toNat ∧ (0x15 : Byte).toNat ≤ 0x15) ∧ (5 < (6 : Byte).toNat ∧ (5 : Byte).toNat ≤ 5) ∧
    (fresh []).xmPresent = false ∧ (fresh []).lcdPresent = false ∧
    (present [nak]).xmPresent = true ∧ (present [nak]).lcdPresent = true ∧
    (present [nak]).nextDraw.outcome = .busError ∧ (present [ack []]).nextDraw.outcome ≠ .busError := by decide

theorem test_premises_XmInitResult :
    (fresh (acks 6)).busOk 6 = true ∧
    ∀ k < 6, (failsAfter k).busOk k = true ∧ ((failsAfter k).drawAt k).outcome = .busError := by decide

theorem test_premises_AbsentDisplay :
    isLcd (.lcdCreateChar 8 []) ∧ ¬ configurationCause (.lcdCreateChar 8 []) (fresh []) ∧
    isLcd (.lcdSetPos 0xFF 0) ∧ ¬ configurationCause (.lcdSetPos 0xFF 0) (fresh []) ∧
    isLcd (.lcdSend 0 1) ∧ ¬ configurationCause (.lcdSend 0 1) (fresh []) := by
  unfold isLcd configurationCause; decide

/-- The first byte sent whole, and each of its writes failing: the hypotheses of every `sends`. -/
theorem test_premises_Sends :
    (present (acks 4)).busOk 4 = true ∧
    ∀ k < 4, (failsAfter k).busOk k = true ∧ ((failsAfter k).drawAt k).outcome = .busError := by decide

/-- A second byte after a settle delay, whole and failing: the hypotheses further down a `sends`. -/
theorem test_premises_Sends_later :
    ((present (acks 9)).sent (commandOf 0x01)).busOk 4 = true ∧
    ∀ k < 4, ((failsAfter (5 + k)).sent (commandOf 0x01)).busOk k = true ∧
      (((failsAfter (5 + k)).sent (commandOf 0x01)).drawAt k).outcome = .busError := by decide

theorem test_premises_SetPosResult :
    (0xFF : Byte).toInt < 0 ∧ 0x7F < (0x40 : Byte).toInt + 0x40 ∧ (0x3F : Byte).toInt + 0x40 ≤ 0x7F ∧
    0x7F < (0x6C : Byte).toInt + 0x14 ∧ (0x6B : Byte).toInt + 0x14 ≤ 0x7F ∧ (0x7F : Byte).toInt + 0x00 ≤ 0x7F := by
  decide

theorem test_premises_CreateCharResult :
    7 < (8 : Byte).toNat ∧ (7 : Byte).toNat ≤ 7 ∧ 8 < (List.replicate 9 (0x1F : Byte)).length ∧
    (List.replicate 8 (0x1F : Byte)).length ≤ 8 := by decide

theorem test_premises_StartBringsUpEverything :
    (fresh (acks 38)).phase = .reset ∧ (fresh (acks 38)).busOk 38 = true ∧ (started []).phase ≠ .reset := by decide

/-- Start-up with no expander, and each probe answered or not. -/
theorem test_premises_StartResult_alone :
    ∃ e : State, (fresh [nak, ack [], nak]).phase = .reset ∧
      triedAtStart .xmInit .expander (fresh [nak, ack [], nak]) e ∧ e.xmPresent = false ∧
      e.nextDraw.outcome ≠ .busError ∧
      ({ e.sensed e.ch0 e.nextDraw with temp0 := some (sensedReading e.ch0 e.nextDraw).value } :
        State).nextDraw.outcome = .busError :=
  ⟨_, rfl, Or.inr ⟨(fresh [ack [], nak]).emitTrace [.writeBytes 0x20 [0x00, 0x3F]] none, rfl, rfl⟩, by decide, by decide,
    by decide⟩

/-- The state an operation leaves. -/
def left {α : Type} : Res α → State
  | .ok _ s => s
  | .err _ s => s

/-- Start-up with an expander and no display, then a first probe that is not answered. -/
theorem test_premises_StartResult_no_display :
    ∃ e d : State, triedAtStart .xmInit .expander (fresh (acks 6 ++ [nak, nak])) e ∧ e.xmPresent = true ∧
      triedAtStart .lcdInit .display e d ∧ d.nextDraw.outcome = .busError := by
  refine ⟨left (xmInit (fresh (acks 6 ++ [nak, nak]))), _, Or.inl rfl, by decide,
    Or.inr ⟨left (lcdInit (left (xmInit (fresh (acks 6 ++ [nak, nak]))))), rfl, rfl⟩, by decide⟩

theorem test_premises_RestartDisplayResult :
    (fresh []).phase ≠ .running ∧ (started []).phase = .running ∧ (started []).stop = false ∧
    ({ started [] with logDl := 1001 } : State).now < 1001 := by decide

/-- One state per ready source, each with the lower ones ready too. -/
theorem test_premises_WaitResult :
    ({ started [] with stop := true, now := 61000 } : State).phase = .running ∧
    (started []).logDl ≤ ({ started [] with now := 61000 } : State).now ∧
    ({ started [] with dispDl := 1000 } : State).dispDl ≤ (started []).now ∧ (started []).now < (started []).logDl ∧
    (started []).now < (started []).dispDl ∧ ({ started [] with irqPend := true, wake := true } : State).wake = true ∧
    (blocked .wait [pause 1000]).waitResumed.now = 2000 ∧ (blocked .wait [pause 1000]).waitResumed.waitStart = 1000 ∧
    (blocked .wait [pause 1000]).waitResumed.stop = false := by decide

theorem test_premises_TimerAdvance :
    (started []).logDl ≤ ({ started [] with now := 61000 } : State).now ∧ 0 < (started []).params.logPeriod ∧
    (started []).dispDl ≤ ({ started [] with now := 6000 } : State).now ∧ 0 < (started []).params.displayPeriod := by
  decide

/-- A stop request at the first evaluation, between the wait and the check after it, and in a blocked wait. -/
theorem test_premises_IterateStops :
    (waitOutcome (started [{ dt := 0, acts := [.request .req [0x65]], outcome := .busError }]).waitStarted).map
        (·.1) = some 5 ∧
    (waitOutcome { started [ack [], { dt := 0, acts := [.request .req [0x65]], outcome := .busError }] with
        wake := true }.waitStarted).map (fun p => (p.1, p.2.interlude.stop)) = some (3, true) ∧
    (waitOutcome (blocked .iterate
        [{ dt := 0, acts := [.request .req [0x65]], outcome := .busError }]).waitResumed).map (·.1) = some 5 := by
  decide

/-- The four sources an iteration can find ready at once, and a timeout of a blocked one. -/
theorem test_premises_iterates :
    (waitOutcome ({ started (acks 9) with now := 61000 } : State).waitStarted).map
      (fun p => (p.1, p.2.interlude.stop)) = some (0, false) ∧
    (waitOutcome ({ started (acks 9) with now := 6000 } : State).waitStarted).map
      (fun p => (p.1, p.2.interlude.stop)) = some (1, false) ∧
    (waitOutcome ({ started (acks 9) with irqPend := true } : State).waitStarted).map
      (fun p => (p.1, p.2.interlude.stop)) = some (2, false) ∧
    (waitOutcome ({ started (acks 9) with wake := true } : State).waitStarted).map
      (fun p => (p.1, p.2.interlude.stop)) = some (3, false) ∧
    (waitOutcome (blocked .iterate [pause 1000, ack []]).waitResumed).map
      (fun p => (p.1, p.2.interlude.stop)) = some (4, false) := by decide

/-- The display after the sensor reads of an iteration: present and answering, failing, and absent. -/
theorem test_premises_DisplayActionResult :
    (started (acks 2)).sensorsRead.lcdPresent = false ∧
    ({ started (acks 6) with lcdPresent := true } : State).sensorsRead.busOk 4 = true ∧
    ({ started (acks 4 ++ [nak]) with lcdPresent := true } : State).sensorsRead.lcdPresent = true ∧
    ({ started (acks 4 ++ [nak]) with lcdPresent := true } : State).sensorsRead.busOk 2 = true ∧
    (({ started (acks 4 ++ [nak]) with lcdPresent := true } : State).sensorsRead.drawAt 2).outcome = .busError := by
  decide

/-- The button action after the sensor reads: both reads answered, the first failing, and the second. -/
theorem test_premises_ButtonActionResult :
    (started (acks 4)).sensorsRead.xmPresent = true ∧
    (started (acks 4)).sensorsRead.nextDraw.outcome ≠ .busError ∧
    (started (acks 2 ++ [nak])).sensorsRead.nextDraw.outcome = .busError ∧
    ((started (acks 3 ++ [nak])).sensorsRead.exchanged (readOps 0x10) [[0]]).nextDraw.outcome = .busError ∧
    ((0xC0 : Byte) &&& 0x3F = 0 ∧ (0x01 : Byte).getLsbD 0 = true ∧ (0x3E : Byte) &&& 0x09 = 0x08 ∧
      (0x36 : Byte) &&& 0x0D = 0x04 ∧ (0x32 : Byte) &&& 0x1D = 0x10 ∧ (0x22 : Byte) &&& 0x1F = 0x02 ∧
      (0xE0 : Byte) &&& 0x3F = 0x20) := by decide

theorem test_premises_RunResult :
    answer .schedStart (fresh [nak, nak]) = some [3] ∧ answer .schedStart (fresh (acks 38)) = some [0] ∧
    answer .schedIterate { started (acks 4) with wake := true } = some [0, 3] ∧
    (blocked .run []).reqPort = [] ∧ (blocked .run []).loop = .waiting .run ∧
    waitOutcome (blocked .run [pause 999]).waitResumed = none ∧
    (waitOutcome (blocked .run [pause 1000]).waitResumed).isSome = true ∧
    waitOutcome (started [ack []]).waitStarted = none ∧ (started [ack []]).stop = false ∧
    (started []).phase = .running := by decide

end Sys2Proof.Tests
end

/-! # The request encoding (30_encoding.md R90 to R95)

How the decoder and the fetch behave, and the two statements on refused requests (O3 and O4). -/

namespace Sys2Proof.Laws

open Sys2Proof.Machine

/-! ## Decoding an encoding -/

/-- Every encoding begins with the op code of its row (R90, R92). -/
theorem encode_eq_cons (i : Instr) : ∃ operands, encode i = (tableRow i).1 :: operands := by
  cases i <;> exact ⟨_, rfl⟩

/-- The decoder reads a request back and leaves the bytes after it; only the rows with an `f64` or a byte string
operand need a law of their own. -/
theorem decode_encode_append (i : Instr) (rest : List Byte) (hwf : i.wf = true) :
    decode (encode i ++ rest) = .ok (i, rest) := by
  cases i
  case tcEncodeA x ext =>
    calc decode (encode (.tcEncodeA x ext) ++ rest)
        = takeF64 0x01 (fun x => take1 0x01 (.tcEncodeA x)) (be64 x ++ ext :: rest) := rfl
      _ = .ok (.tcEncodeA x ext, rest) := takeF64_be64 ..
  case tcEncodeB x res =>
    calc decode (encode (.tcEncodeB x res) ++ rest)
        = takeF64 0x03 (fun x => take1 0x03 (.tcEncodeB x)) (be64 x ++ res :: rest) := rfl
      _ = .ok (.tcEncodeB x res, rest) := takeF64_be64 ..
  case scWriteThreshold ch which x => exact takeF64_be64 0x05 (fun x r => .ok (.scWriteThreshold ch which x, r)) x rest
  case lcdMessage text => exact takeBytes_encodeBytes 0x50 _ text rest hwf
  case lcdCreateChar slot bitmap => exact takeBytes_encodeBytes 0x51 _ bitmap rest hwf
  all_goals rfl

/-! ## Requests that end too early -/

/-- `f` reads a request's operands from the front: what it accepts it accepts with any bytes after it, which it
hands back, and it answers everything else as a short request of `op`. -/
def ReadsOperands (op : Byte) (f : List Byte → Decoded) : Prop :=
  ∀ bs, f bs = .error (.short op) ∨ ∃ i rest, ∀ more, f (bs ++ more) = .ok (i, rest ++ more)

theorem readsOperands_none (op : Byte) (i : Instr) : ReadsOperands op (fun bs => .ok (i, bs)) :=
  fun bs => .inr ⟨i, bs, fun _ => rfl⟩

theorem readsOperands_take1 (op : Byte) (k : Byte → Instr) : ReadsOperands op (take1 op k)
  | [] => .inl rfl
  | a :: rest => .inr ⟨k a, rest, fun _ => rfl⟩

theorem readsOperands_take2 (op : Byte) (k : Byte → Byte → Instr) : ReadsOperands op (take2 op k)
  | [] | [_] => .inl rfl
  | a :: b :: rest => .inr ⟨k a b, rest, fun _ => rfl⟩

theorem readsOperands_take3 (op : Byte) (k : Byte → Byte → Byte → Instr) : ReadsOperands op (take3 op k)
  | [] | [_] | [_, _] => .inl rfl
  | a :: b :: c :: rest => .inr ⟨k a b c, rest, fun _ => rfl⟩

theorem readsOperands_takeF64 (op : Byte) (k : F64 → List Byte → Decoded) (hk : ∀ x, ReadsOperands op (k x)) :
    ReadsOperands op (takeF64 op k)
  | [] | [_] | [_, _] | [_, _, _] | [_, _, _, _] | [_, _, _, _, _] | [_, _, _, _, _, _]
  | [_, _, _, _, _, _, _] => .inl rfl
  | a :: b :: c :: d :: e :: f :: g :: h :: rest => hk (ofBe64 a b c d e f g h) rest

theorem readsOperands_takeBytes (op : Byte) (k : List Byte → Instr) : ReadsOperands op (takeBytes op k)
  | [] => .inl rfl
  | n :: r => by
    cases hsplit : splitBytes n.toNat r with
    | none => exact .inl (by simp only [takeBytes, hsplit])
    | some p =>
      obtain ⟨text, rest⟩ := p
      obtain ⟨hlength, rfl⟩ := splitBytes_eq_some hsplit
      refine .inr ⟨k text, rest, fun more => ?_⟩
      have hmore := splitBytes_append text (rest ++ more)
      rw [hlength] at hmore
      simp only [List.cons_append, List.append_assoc, takeBytes, hmore]

/-- Every row of the op-code map reads its operands from the front (R90: the length of a request is known after
its first byte, and its length byte where it has one). -/
theorem decodeBody_readsOperands (i : Instr) : ReadsOperands (tableRow i).1 (decodeBody (tableRow i).1) := by
  cases i with
  | tcDecodeA | tcDecodeB => exact readsOperands_take3 _ _
  | tcEncodeA | tcEncodeB => exact readsOperands_takeF64 _ _ fun _ => readsOperands_take1 _ _
  | scWriteThreshold =>
    intro bs
    match bs with
    | [] | [_] => exact .inl rfl
    | ch :: which :: bs => exact readsOperands_takeF64 _ _ (fun _ => readsOperands_none _ _) bs
  | lcdMessage => exact readsOperands_takeBytes _ _
  | lcdCreateChar =>
    intro bs
    match bs with
    | [] => exact .inl rfl
    | slot :: bs => exact readsOperands_takeBytes _ _ bs
  | xmWrite | xmTestButton | lcdSend | lcdSetPos => exact readsOperands_take2 _ _
  | scRead | xmRead | xmWriteB | xmSetRed | xmSetGreen | xmSetBacklight | lcdCommand | lcdData | lcdSetDisplay
  | lcdSetCursor | lcdSetBlink | lcdSetAutoscroll => exact readsOperands_take1 _ _
  | xmInit | xmAckInt | xmReadButtons | lcdInit | lcdReset | lcdClear | lcdHome | lcdLeftToRight | lcdRightToLeft
  | lcdScrollLeft | lcdScrollRight | schedStart | schedWait | schedIterate | schedRestartDisplay | schedWake
  | schedStop | schedSnapshot | schedRun => exact readsOperands_none _ _

/-- A strict beginning of a request is short: were it accepted, the decoder would hand the missing bytes back from
the whole request, and it hands back none. -/
theorem decode_truncated {i : Instr} {op : Byte} {bytes : List Byte} (hwf : i.wf = true)
    (hbegins : (op :: bytes) <+: encode i) (hlength : (op :: bytes).length < (encode i).length) :
    decode (op :: bytes) = .error (.short op) := by
  obtain ⟨missing, hmissing⟩ := hbegins
  obtain ⟨operands, hoperands⟩ := encode_eq_cons i
  obtain rfl : op = (tableRow i).1 := by
    rw [hoperands] at hmissing
    exact (List.cons.inj hmissing).1
  obtain hshort | ⟨j, rest, haccepts⟩ := decodeBody_readsOperands i bytes
  · exact hshort
  · have hwhole : decode (encode i) = .ok (i, []) := by
      simpa only [List.append_nil] using decode_encode_append i [] hwf
    have hrest : rest ++ missing = [] := by
      rw [← hmissing] at hwhole
      have heq := (haccepts missing).symm.trans hwhole
      simp only [Except.ok.injEq, Prod.mk.injEq] at heq
      exact heq.2
    obtain ⟨-, rfl⟩ := List.append_eq_nil_iff.mp hrest
    rw [← hmissing, List.append_nil] at hlength
    exact absurd hlength (lt_irrefl _)

/-! ## Reserved op codes -/

theorem opCode_not_reserved (i : Instr) : ¬ reservedOpCode (tableRow i).1 := by
  cases i <;> simp only [tableRow, reservedOpCode] <;> decide

/-- One request for every row of the op-code map, in the map's order. -/
def requestOfEveryRow : List Instr :=
  [.tcDecodeA 0 0 0, .tcEncodeA 0 0, .tcDecodeB 0 0 0, .tcEncodeB 0 0, .scRead 0, .scWriteThreshold 0 0 0,
   .xmWrite 0 0, .xmRead 0, .xmInit, .xmWriteB 0, .xmSetRed 0, .xmSetGreen 0, .xmSetBacklight 0, .xmAckInt,
   .xmReadButtons, .xmTestButton 0 0,
   .lcdSend 0 0, .lcdCommand 0, .lcdData 0, .lcdInit, .lcdReset, .lcdClear, .lcdHome, .lcdSetDisplay 0,
   .lcdSetCursor 0, .lcdSetBlink 0, .lcdLeftToRight, .lcdRightToLeft, .lcdSetAutoscroll 0, .lcdScrollLeft,
   .lcdScrollRight, .lcdSetPos 0 0, .lcdMessage [], .lcdCreateChar 0 [],
   .schedStart, .schedWait, .schedIterate, .schedRestartDisplay, .schedWake, .schedStop, .schedSnapshot,
   .schedRun]

/-- The map has a row for every op code outside the reserved ranges. -/
theorem reserved_or_opCode (op : Byte) : reservedOpCode op ∨ ∃ i ∈ requestOfEveryRow, (tableRow i).1 = op := by
  revert op
  unfold reservedOpCode
  decide

/-- R94 as a set: the reserved op codes are exactly those no encoding begins with. -/
theorem reservedOpCode_iff (op : Byte) : reservedOpCode op ↔ ∀ i : Instr, (encode i).head? ≠ some op := by
  have hhead (i : Instr) : (encode i).head? = some (tableRow i).1 := by
    obtain ⟨operands, h⟩ := encode_eq_cons i
    rw [h, List.head?_cons]
  constructor
  · intro hreserved i hop
    rw [hhead, Option.some.injEq] at hop
    exact opCode_not_reserved i (hop ▸ hreserved)
  · intro hnone
    obtain hreserved | ⟨i, -, hi⟩ := reserved_or_opCode op
    · exact hreserved
    · exact absurd (hi ▸ hhead i) (hnone i)

/-- No row of `decodeBody` lies in a reserved range, so its last arm answers. -/
theorem decode_reserved {op : Byte} (hreserved : reservedOpCode op) (rest : List Byte) :
    decode (op :: rest) = .error (.reserved op) := by
  unfold reservedOpCode at hreserved
  simp only [decode]
  unfold decodeBody
  split
  case h_43 => rfl
  all_goals omega

/-! ## Refusals -/

/-- Bytes that are no request are refused at whichever port the step looks at. -/
theorem step_of_decode_error {s : State} {op : Byte} {bytes : List Byte} {e : DecodeError}
    (hnext : s.nextBytes (op :: bytes)) (herror : decode (op :: bytes) = .error e) :
    step s = .refused (refusalOf e) := by
  have hfetch : fetch s = .refuse (refusalOf e) := by
    obtain hreq | ⟨hreq, hidle, hgap, hhost⟩ := hnext
    · simp only [fetch, hreq, fetchReq, herror]
    · simp [fetch, hreq, fetchLoop, hidle, hgap, hhost, fetchHost, herror]
  simp only [step, hfetch]

/-- A refused step is the last of every run that takes it. -/
theorem run_of_refused {s : State} {r : Refusal} (h : step s = .refused r) (k : Nat) :
    core.run (k + 1) s = .refused r := by
  have hcore : core.step s = .refused r := h
  simp only [Host.Core.run, hcore]

theorem reqMayIssue_iff (i : Instr) :
    i.reqMayIssue = true ↔ i = .schedWake ∨ i = .schedStop ∨ i = .schedSnapshot := by
  cases i <;> simp [Instr.reqMayIssue]

/-- A whole request at REQ's port that REQ may not issue is refused by its op code. -/
theorem step_of_foreign_request {s : State} {i : Instr} {op : Byte} {bytes rest : List Byte}
    (hport : s.reqPort = op :: bytes) (hdecode : decode (op :: bytes) = .ok (i, rest))
    (hforeign : i.reqMayIssue = false) : step s = .refused (.notForReq op) := by
  have hfetch : fetch s = .refuse (.notForReq op) := by
    simp [fetch, hport, fetchReq, hdecode, hforeign]
  simp only [step, hfetch]

end Sys2Proof.Laws

/-! ## The two statements -/

section

open Sys2Proof Sys2Proof.Laws

/-- Settles O3: a reserved op code is one without a row in the op-code map, the decoder answers it as reserved,
and a refused step ends every run. -/
theorem reservedOpCodesRefused : Obligations.ReservedOpCodesRefused := by
  unfold Obligations.ReservedOpCodesRefused
  refine ⟨reservedOpCode_iff, fun op rest s hreserved hnext => ?_⟩
  have hstep : Machine.step s = .refused (.reservedOp op) :=
    step_of_decode_error hnext (decode_reserved hreserved rest)
  exact ⟨hstep, run_of_refused hstep⟩

/-- Settles O4: a strict beginning of a request decodes as short, and a whole request that is none of REQ's three
decodes to one that REQ may not issue. -/
theorem shortAndForeignRequestsRefused : Obligations.ShortAndForeignRequestsRefused := by
  unfold Obligations.ShortAndForeignRequestsRefused
  constructor
  · intro i op bytes s hwf hbegins hlength hnext
    exact step_of_decode_error hnext (decode_truncated hwf hbegins hlength)
  · intro i op bytes rest s hwf hencode hwake hstop hsnapshot hport
    have hdecode : decode (op :: bytes ++ rest) = .ok (i, rest) := by
      rw [← hencode]
      exact decode_encode_append i rest hwf
    have hforeign : i.reqMayIssue = false := by
      simp [← Bool.not_eq_true, reqMayIssue_iff, hwake, hstop, hsnapshot]
    exact step_of_foreign_request hport hdecode hforeign

end

/-! # The expander (40_expander.md R130 to R143)

What the requests of U2 end in, given what the bus answers, and the five statements on them (O35 to O39). -/

namespace Sys2Proof.Machine

/-! ## The end of a request -/

@[simp] theorem finish_ok (results : List Byte) (s : State) :
    finish (.ok results s) = .next (s.respond (0 :: results)) := rfl

@[simp] theorem finish_err (e : Err) (s : State) : finish (.err e s) = .next (s.respond [e.code]) := rfl

/-! ## One register access, by the outcome of its transaction -/

section

variable {s : State}

theorem regWrite_ok (reg v : Byte) (h : s.nextDraw.outcome ≠ .busError) :
    regWrite reg v s = .ok () ((s.exchanged [.writeBytes 0x20 [reg, v]] []).noteWrite reg v) := by
  obtain ⟨-, hw⟩ | ⟨hb, -⟩ := regWrite_cases reg v s
  · exact hw
  · exact absurd hb h

theorem regWrite_failed (reg v : Byte) (h : s.nextDraw.outcome = .busError) :
    regWrite reg v s = .err .bus (s.exchangeFailed [.writeBytes 0x20 [reg, v]]) := by
  obtain ⟨hok, -⟩ | ⟨-, hw⟩ := regWrite_cases reg v s
  · exact absurd h hok
  · exact hw

theorem regRead_ok (reg : Byte) (h : s.nextDraw.outcome ≠ .busError) :
    regRead reg s = .ok ((drawData s.nextDraw).headD 0)
      (s.exchanged (readOps reg) [[(drawData s.nextDraw).headD 0]]) := by
  obtain ⟨data, hd, hr⟩ | ⟨hb, -⟩ := regRead_cases reg s
  · have hdata : drawData s.nextDraw = data := by simp only [drawData, hd]
    rw [hdata, hr]
  · exact absurd hb h

theorem regRead_failed (reg : Byte) (h : s.nextDraw.outcome = .busError) :
    regRead reg s = .err .bus (s.exchangeFailed (readOps reg)) := by
  obtain ⟨data, hd, -⟩ | ⟨-, hr⟩ := regRead_cases reg s
  · rw [h] at hd; cases hd
  · exact hr

theorem writeB_ok (v : Byte) (h : s.nextDraw.outcome ≠ .busError) : writeB v s = .ok () (s.writtenB v) :=
  regWrite_ok regGpiob v h

theorem writeB_failed (v : Byte) (h : s.nextDraw.outcome = .busError) :
    writeB v s = .err .bus (s.exchangeFailed [.writeBytes 0x20 [0x13, v]]) :=
  regWrite_failed regGpiob v h

/-- GPIOA is no shadowed register, so its write is noted in `CACHE_A` alone. -/
theorem regWrite_gpioa_ok (v : Byte) (h : s.nextDraw.outcome ≠ .busError) :
    regWrite regGpioa v s = .ok () (s.writtenA v) :=
  regWrite_ok regGpioa v h

theorem regWrite_gpioa_failed (v : Byte) (h : s.nextDraw.outcome = .busError) :
    regWrite regGpioa v s = .err .bus (s.exchangeFailed [.writeBytes 0x20 [0x12, v]]) :=
  regWrite_failed regGpioa v h

end

/-! ## `XM_PRESENT` and the environment -/

/-- The state with this presence of the expander, and all else as it was. -/
def State.setPresent (present : Bool) (s : State) : State := { s with xmPresent := present }

theorem busOk_setPresent (n : Nat) (present : Bool) (s : State) : (s.setPresent present).busOk n = s.busOk n :=
  busOk_congr n rfl rfl

theorem drawAt_setPresent (n : Nat) (present : Bool) (s : State) :
    (s.setPresent present).drawAt n = s.drawAt n := drawAt_congr n rfl rfl

theorem elapsed_setPresent (n : Nat) (present : Bool) (s : State) :
    (s.setPresent present).elapsed n = (s.elapsed n).envFrom (s.setPresent present) :=
  elapsed_envFrom n s (s.setPresent present) rfl

theorem elapse_setPresent (present : Bool) (s : State) :
    (s.setPresent present).elapse = s.elapse.setPresent present := by
  have h : (s.setPresent present).elapse = s.elapse.envFrom (s.setPresent present) :=
    elapse_envFrom s (s.setPresent present) rfl
  rw [h, elapse_eq s]
  rfl

theorem exchanged_setPresent (present : Bool) (ops : List BusOp) (r : List (List Byte)) (s : State) :
    (s.setPresent present).exchanged ops r = (s.exchanged ops r).setPresent present := by
  rw [State.exchanged, elapse_setPresent]
  rfl

theorem exchangeFailed_setPresent (present : Bool) (ops : List BusOp) (s : State) :
    (s.setPresent present).exchangeFailed ops = (s.exchangeFailed ops).setPresent present := by
  rw [State.exchangeFailed, elapse_setPresent]
  rfl

/-! ## The copies a register write updates (R130) -/

/-- The shadow register by register: a shadowed register is one of eight, and a write of any other changes none. -/
theorem Shadow.write_eq (reg v : Byte) (sh : Shadow) : sh.write reg v =
    { iodira := if reg = 0x00 then v else sh.iodira
      iodirb := if reg = 0x01 then v else sh.iodirb
      ipola := if reg = 0x02 then v else sh.ipola
      ipolb := if reg = 0x03 then v else sh.ipolb
      gpintena := if reg = 0x04 then v else sh.gpintena
      gpintenb := if reg = 0x05 then v else sh.gpintenb
      gppua := if reg = 0x0C then v else sh.gppua
      gppub := if reg = 0x0D then v else sh.gppub } := by
  by_cases h : reg ∈ [0x00, 0x01, 0x02, 0x03, 0x04, 0x05, 0x0C, 0x0D]
  · simp only [List.mem_cons, List.not_mem_nil, or_false] at h
    obtain rfl | rfl | rfl | rfl | rfl | rfl | rfl | rfl := h <;> rfl
  · simp_all [Shadow.write, regIodira, regIodirb, regIpola, regIpolb, regGpintena, regGpintenb, regGppua, regGppub]

theorem exchanged_shadow (ops : List BusOp) (r : List (List Byte)) (s : State) :
    (s.exchanged ops r).shadow = s.shadow := by
  rw [State.exchanged, elapse_eq s]
  rfl

theorem exchanged_cacheB (ops : List BusOp) (r : List (List Byte)) (s : State) :
    (s.exchanged ops r).cacheB = s.cacheB := by
  rw [State.exchanged, elapse_eq s]
  rfl

theorem exchanged_cacheA (ops : List BusOp) (r : List (List Byte)) (s : State) :
    (s.exchanged ops r).cacheA = s.cacheA := by
  rw [State.exchanged, elapse_eq s]
  rfl

/-! ## XM.WRITE and XM.READ (R132, R133) -/

theorem exec_xmWrite (reg v : Byte) (s : State) : exec (.xmWrite reg v) s =
    finish (if reg > regMax then .err .configuration s else (regWrite reg v s).noResult) := rfl

theorem exec_xmRead (reg : Byte) (s : State) : exec (.xmRead reg) s =
    finish (if reg > regMax then .err .configuration s
      else (regRead reg s).andThen fun v s1 => .ok [v] s1) := rfl

/-- The register map ends at OLATB. -/
theorem gt_regMax_iff (reg : Byte) : reg > regMax ↔ 0x15 < reg.toNat := BitVec.lt_def

/-! ## XM.INIT (R136) -/

theorem not_busError_of_busOk {n k : Nat} {s : State} (hn : s.busOk n = true) (hk : k < n) :
    (s.drawAt k).outcome ≠ .busError := by
  induction n generalizing s k with
  | zero => exact absurd hk (Nat.not_lt_zero k)
  | succ n ih =>
    obtain ⟨hfirst, hrest⟩ := (busOk_succ n s).1 hn
    cases k with
    | zero => exact hfirst
    | succ k => exact ih (s := s.dropDraw) hrest (Nat.lt_of_succ_lt_succ hk)

theorem regWrites_ok {ws : List (Byte × Byte)} {s : State} (h : s.busOk ws.length = true) :
    regWrites ws s = .ok () ((s.elapsed ws.length).envFrom (s.regsWritten ws)) := by
  obtain ⟨-, hok⟩ | ⟨k, hk, -, hfail, -⟩ := regWrites_cases ws s
  · exact hok
  · exact absurd hfail (not_busError_of_busOk h hk)

theorem regWrites_failed {ws : List (Byte × Byte)} {s : State} {k : Nat} (hk : k < ws.length)
    (hok : s.busOk k = true) (hfail : (s.drawAt k).outcome = .busError) : regWrites ws s =
      .err .bus ((s.elapsed (k + 1)).envFrom
        { s.regsWritten (ws.take k) with
          trace := s.trace ++ (ws.take k).map (fun w => wroteRecord w.1 w.2) ++
            [failedRecord (ws.getD k (0, 0)).1 (ws.getD k (0, 0)).2] }) := by
  obtain ⟨hall, -⟩ | ⟨j, -, hokj, hfailj, hend⟩ := regWrites_cases ws s
  · exact absurd hfail (not_busError_of_busOk hall hk)
  · obtain hlt | rfl | hgt := Nat.lt_trichotomy j k
    · exact absurd hfailj (not_busError_of_busOk hok hlt)
    · exact hend
    · exact absurd hfail (not_busError_of_busOk hokj hgt)

/-- The copies after a register write, as `State.noteWrite` keeps them: the shadow and the two caches. -/
def noteCopies (copies : Shadow × Byte × Byte) (w : Byte × Byte) : Shadow × Byte × Byte :=
  (copies.1.write w.1 w.2,
    if w.1 = regGpiob ∨ w.1 = regOlatb then w.2 else copies.2.1,
    if w.1 = regGpioa ∨ w.1 = regOlata then w.2 else copies.2.2)

/-- Register writes in order leave one record each, and the copies. -/
theorem regsWritten_eq (ws : List (Byte × Byte)) (s : State) :
    s.regsWritten ws =
      { s with
        trace := s.trace ++ ws.map (fun w => wroteRecord w.1 w.2)
        shadow := (ws.foldl noteCopies (s.shadow, s.cacheB, s.cacheA)).1
        cacheB := (ws.foldl noteCopies (s.shadow, s.cacheB, s.cacheA)).2.1
        cacheA := (ws.foldl noteCopies (s.shadow, s.cacheB, s.cacheA)).2.2 } := by
  induction ws generalizing s with
  | nil => rw [List.map_nil, List.append_nil]; rfl
  | cons w ws ih =>
    have htrace : (s.regWritten w).trace = s.trace ++ [wroteRecord w.1 w.2] := rfl
    rw [regsWritten_cons, ih, htrace, List.append_assoc, List.singleton_append]
    rfl

/-- The shadow after the first `k` writes of XM.INIT; the sixth is to a register that is not shadowed. -/
def Shadow.initialised (k : Nat) (sh : Shadow) : Shadow :=
  { sh with
    iodira := if 0 < k then 0x3F else sh.iodira
    iodirb := if 1 < k then 0x00 else sh.iodirb
    ipola := if 2 < k then 0x3F else sh.ipola
    gppua := if 3 < k then 0x3F else sh.gppua
    gpintena := if 4 < k then 0x1F else sh.gpintena }

/-- What the first `k` writes of XM.INIT, and the record of one that fails after them, leave of LOOP's own
fields: neither cache is touched. -/
def State.initWrote (k : Nat) (failed : List BusRecord) (s : State) : State :=
  { s with
    trace := s.trace ++ (xmInitWrites.take k).map (fun w => wroteRecord w.1 w.2) ++ failed
    shadow := s.shadow.initialised k }

theorem noteCopies_xmInitWrites {k : Nat} (hk : k ≤ 6) (sh : Shadow) (b a : Byte) :
    (xmInitWrites.take k).foldl noteCopies (sh, b, a) = (sh.initialised k, b, a) := by
  interval_cases k <;> rfl

theorem regsWritten_xmInitWrites {k : Nat} (hk : k ≤ 6) (failed : List BusRecord) (s : State) :
    { s.regsWritten (xmInitWrites.take k) with
      trace := s.trace ++ (xmInitWrites.take k).map (fun w => wroteRecord w.1 w.2) ++ failed } =
      s.initWrote k failed := by
  rw [regsWritten_eq, noteCopies_xmInitWrites hk]
  rfl

theorem regsWritten_all_xmInitWrites (s : State) : s.regsWritten xmInitWrites = s.initWrote 6 [] := by
  have hall : xmInitWrites.take 6 = xmInitWrites := rfl
  have hcopies := noteCopies_xmInitWrites (le_refl 6) s.shadow s.cacheB s.cacheA
  rw [hall] at hcopies
  rw [regsWritten_eq, hcopies, State.initWrote, hall, List.append_nil]

/-- XM.INIT writes with `XM_PRESENT` at 0, whatever it was before. -/
theorem envFrom_initWrote_absent (t s : State) (k : Nat) (failed : List BusRecord) :
    (t.envFrom (s.setPresent false)).envFrom ((s.setPresent false).initWrote k failed) =
      (t.envFrom (s.initWrote k failed)).setPresent false := rfl

theorem xmInit_of_writes_ok {s t : State} {present : Bool}
    (h : regWrites xmInitWrites (s.setPresent false) = .ok () (t.setPresent present)) :
    xmInit s = .ok () (t.setPresent true) := by
  rw [State.setPresent] at h
  rw [xmInit, h]
  rfl

theorem xmInit_of_writes_failed {s t : State} {e : Err}
    (h : regWrites xmInitWrites (s.setPresent false) = .err e t) : xmInit s = .err .hardwareAbsent t := by
  rw [State.setPresent] at h
  rw [xmInit, h]

theorem xmInit_ok {s : State} (h : s.busOk 6 = true) :
    xmInit s = .ok () (((s.elapsed 6).envFrom (s.initWrote 6 [])).setPresent true) := by
  have hlength : xmInitWrites.length = 6 := rfl
  have hwrites := regWrites_ok (ws := xmInitWrites) ((busOk_setPresent 6 false s).trans h)
  rw [hlength, regsWritten_all_xmInitWrites, elapsed_setPresent, envFrom_initWrote_absent] at hwrites
  exact xmInit_of_writes_ok hwrites

theorem xmInit_failed {s : State} {k : Nat} (hk : k < 6) (hok : s.busOk k = true)
    (hfail : (s.drawAt k).outcome = .busError) : xmInit s = .err .hardwareAbsent
      (((s.elapsed (k + 1)).envFrom (s.initWrote k
        [failedRecord (xmInitWrites.getD k (0, 0)).1 (xmInitWrites.getD k (0, 0)).2])).setPresent false) := by
  have hwrites := regWrites_failed (ws := xmInitWrites) hk ((busOk_setPresent k false s).trans hok)
    ((drawAt_setPresent k false s).symm ▸ hfail)
  rw [regsWritten_xmInitWrites hk.le, elapsed_setPresent, envFrom_initWrote_absent] at hwrites
  exact xmInit_of_writes_failed hwrites

/-- The state XM.INIT ends in, field by field. -/
theorem initWrote_eq (k n : Nat) (present : Bool) (failed : List BusRecord) (s : State) :
    ((s.elapsed n).envFrom (s.initWrote k failed)).setPresent present =
      { s.elapsed n with
        trace := s.trace ++ (xmInitWrites.take k).map (fun w => wroteRecord w.1 w.2) ++ failed
        xmPresent := present
        shadow := s.shadow.initialised k } := by
  rw [elapsed_eq n s]
  rfl

theorem exec_xmInit (s : State) : exec .xmInit s = finish (xmInit s).noResult := rfl

/-! ## The bank outputs (R135, R137 to R139) -/

theorem exec_xmWriteB (v : Byte) (s : State) : exec (.xmWriteB v) s =
    finish (if s.xmPresent then (writeB v s).noResult else .ok [] s) := rfl

theorem exec_xmSetRed (on : Bool) (s : State) :
    exec (.xmSetRed (boolByte on)) s = finish (setRed on s).noResult := by
  cases on <;> rfl

theorem exec_xmSetGreen (on : Bool) (s : State) :
    exec (.xmSetGreen (boolByte on)) s = finish (setGreen on s).noResult := by
  cases on <;> rfl

theorem exec_xmSetBacklight (on : Bool) (s : State) :
    exec (.xmSetBacklight (boolByte on)) s = finish (setBacklight on s).noResult := by
  cases on <;> rfl

section

variable {s : State}

theorem exec_xmWriteB_present (v : Byte) (h : s.xmPresent = true) :
    exec (.xmWriteB v) s = finish (writeB v s).noResult := by
  rw [exec_xmWriteB, if_pos h]

/-- The mask `~RED & 0xFF` of R137 clears bit 0 and no other. -/
theorem exec_xmSetRed_present (on : Bool) (h : s.xmPresent = true) : exec (.xmSetRed (boolByte on)) s =
    finish (writeB ((s.cacheB &&& ~~~0x01 &&& 0xFF) ||| (if on then 0x01 else 0)) s).noResult := by
  have hmask : s.cacheB &&& ~~~0x01 &&& 0xFF = s.cacheB &&& ~~~redMask := BitVec.and_allOnes
  rw [exec_xmSetRed, setRed, if_pos h, hmask]
  rfl

theorem exec_xmSetGreen_present (on : Bool) (h : s.xmPresent = true) : exec (.xmSetGreen (boolByte on)) s =
    finish (regWrite regGpioa ((s.cacheA &&& 0x7F) ||| (if on then 0x80 else 0)) s).noResult := by
  rw [exec_xmSetGreen, setGreen, if_pos h]
  rfl

theorem exec_xmSetBacklight_present (on : Bool) (h : s.xmPresent = true) :
    exec (.xmSetBacklight (boolByte on)) s =
      finish (regWrite regGpioa (if on then s.cacheA &&& 0xBF else s.cacheA ||| 0x40) s).noResult := by
  rw [exec_xmSetBacklight, setBacklight, if_pos h]
  rfl

/-- Without an expander the bank outputs answer OK and issue nothing (R143). -/
theorem bankOutputs_absent (h : s.xmPresent = false) :
    (∀ v, exec (.xmWriteB v) s = .next (s.respond [0])) ∧
    (∀ on, exec (.xmSetRed (boolByte on)) s = .next (s.respond [0])) ∧
    (∀ on, exec (.xmSetGreen (boolByte on)) s = .next (s.respond [0])) ∧
    ∀ on, exec (.xmSetBacklight (boolByte on)) s = .next (s.respond [0]) := by
  refine ⟨fun v => ?_, fun on => ?_, fun on => ?_, fun on => ?_⟩
  · simp [exec_xmWriteB, h]
  · simp [exec_xmSetRed, setRed, h]
  · simp [exec_xmSetGreen, setGreen, h]
  · simp [exec_xmSetBacklight, setBacklight, h]

end

/-! ## The buttons (R140 to R142) -/

theorem exec_xmAckInt (s : State) :
    exec .xmAckInt s = finish ((ackInt s).andThen fun v s1 => .ok [v] s1) := rfl

theorem exec_xmReadButtons (s : State) :
    exec .xmReadButtons s = finish ((readButtons s).andThen fun v s1 => .ok [v] s1) := rfl

theorem exec_xmTestButton (mask id : Byte) (s : State) : exec (.xmTestButton mask id) s =
    finish (if id > 5 then .err .configuration s else .ok [(mask >>> id.toNat) &&& 1] s) := rfl

/-- Without an expander the two reads answer HardwareAbsent and issue nothing (R143). -/
theorem buttonReads_absent {s : State} (h : s.xmPresent = false) :
    exec .xmAckInt s = .next (s.respond [3]) ∧ exec .xmReadButtons s = .next (s.respond [3]) := by
  constructor
  · simp [exec_xmAckInt, ackInt, h, Err.code]
  · simp [exec_xmReadButtons, readButtons, h, Err.code]

/-- Bit 0 of a shifted byte is the bit shifted there. -/
theorem shiftRight_and_one (mask : Byte) (n : Nat) : (mask >>> n) &&& 1 = boolByte (mask.getLsbD n) := by
  have hone : (1 : Byte) = BitVec.twoPow 8 0 := rfl
  rw [hone, BitVec.and_twoPow, BitVec.getLsbD_ushiftRight, Nat.add_zero]
  rfl

/-! ## The requests that do not look at `XM_PRESENT` (R143)

Each is built from transactions, and a transaction ends the same whatever the presence is. -/

/-- The same end of an operation, in the state with this presence. -/
def Res.setPresent {α : Type} (present : Bool) : Res α → Res α
  | .ok a s => .ok a (s.setPresent present)
  | .err e s => .err e (s.setPresent present)

theorem txn_setPresent (present : Bool) (ops : List BusOp) (s : State) :
    txn ops (s.setPresent present) = (txn ops s).setPresent present := by
  have hdraw : (s.setPresent present).nextDraw = s.nextDraw := rfl
  obtain ⟨data, hd, ht⟩ | ⟨hb, ht⟩ := txn_cases ops s
  · rw [ht, txn_ok (hdraw ▸ hd), exchanged_setPresent]
    rfl
  · rw [ht, txn_failed (hdraw ▸ hb), exchangeFailed_setPresent]
    rfl

/-- A sequence keeps to the rule if what follows the first operation does. -/
theorem andThen_setPresent {α β : Type} {present : Bool} {k : α → State → Res β} (r : Res α)
    (hk : ∀ a s, k a (s.setPresent present) = (k a s).setPresent present) :
    (r.setPresent present).andThen k = (r.andThen k).setPresent present := by
  cases r with
  | ok a s => exact hk a s
  | err e s => rfl

theorem regWrite_setPresent (present : Bool) (reg v : Byte) (s : State) :
    regWrite reg v (s.setPresent present) = (regWrite reg v s).setPresent present := by
  rw [regWrite, txn_setPresent]
  exact andThen_setPresent _ fun _ _ => rfl

theorem regRead_setPresent (present : Bool) (reg : Byte) (s : State) :
    regRead reg (s.setPresent present) = (regRead reg s).setPresent present := by
  rw [regRead, txn_setPresent]
  exact andThen_setPresent _ fun _ _ => rfl

theorem finish_setPresent {r : Res (List Byte)} {t : State} (present : Bool) (h : finish r = .next t) :
    finish (r.setPresent present) = .next (t.setPresent present) := by
  cases r with
  | ok results s => cases h; rfl
  | err e s => cases h; rfl

/-- XM.INIT clears `XM_PRESENT` before its first write. -/
theorem exec_xmInit_setPresent (present : Bool) (s : State) :
    exec .xmInit (s.setPresent present) = exec .xmInit s := rfl

theorem exec_xmWrite_setPresent {reg v : Byte} {s t : State} (present : Bool)
    (h : exec (.xmWrite reg v) s = .next t) :
    exec (.xmWrite reg v) (s.setPresent present) = .next (t.setPresent present) := by
  rw [exec_xmWrite] at h ⊢
  split_ifs at h ⊢ with hreg
  · exact finish_setPresent present h
  · rw [regWrite_setPresent, Res.noResult, andThen_setPresent _ fun _ _ => rfl]
    exact finish_setPresent present h

theorem exec_xmRead_setPresent {reg : Byte} {s t : State} (present : Bool)
    (h : exec (.xmRead reg) s = .next t) :
    exec (.xmRead reg) (s.setPresent present) = .next (t.setPresent present) := by
  rw [exec_xmRead] at h ⊢
  split_ifs at h ⊢ with hreg
  · exact finish_setPresent present h
  · rw [regRead_setPresent, andThen_setPresent _ fun _ _ => rfl]
    exact finish_setPresent present h

theorem exec_xmTestButton_setPresent {mask id : Byte} {s t : State} (present : Bool)
    (h : exec (.xmTestButton mask id) s = .next t) :
    exec (.xmTestButton mask id) (s.setPresent present) = .next (t.setPresent present) := by
  rw [exec_xmTestButton] at h ⊢
  split_ifs at h ⊢ with hid <;> exact finish_setPresent present h

end Sys2Proof.Machine

/-! ## The five statements -/

section

open Sys2Proof Sys2Proof.Machine

/-- Settles O35: the pointer is in the map or not, and the one transaction succeeds or fails; the copies of R130
are read off register by register. -/
theorem rawRegisterResults : Obligations.RawRegisterResults := by
  unfold Obligations.RawRegisterResults
  intro reg v s
  refine ⟨fun hbad => ?_, fun hgood hbus => ?_, fun hgood hok => ?_⟩
  · have hreg : reg > regMax := (gt_regMax_iff reg).2 hbad
    rw [exec_xmWrite, exec_xmRead, if_pos hreg, if_pos hreg]
    exact ⟨rfl, rfl⟩
  · have hreg : ¬ reg > regMax := mt (gt_regMax_iff reg).1 (Nat.not_lt.2 hgood)
    rw [exec_xmWrite, exec_xmRead, if_neg hreg, if_neg hreg, regWrite_failed reg v hbus, regRead_failed reg hbus]
    exact ⟨rfl, rfl⟩
  · have hreg : ¬ reg > regMax := mt (gt_regMax_iff reg).1 (Nat.not_lt.2 hgood)
    rw [exec_xmWrite, exec_xmRead, if_neg hreg, if_neg hreg, regWrite_ok reg v hok, regRead_ok reg hok]
    refine ⟨?_, rfl⟩
    rw [State.noteWrite, Shadow.write_eq, exchanged_shadow, exchanged_cacheB, exchanged_cacheA]
    rfl

/-- Settles O36: the writes are the six of `xmInitWrites`, made up to the first that fails. -/
theorem xmInitResult : Obligations.XmInitResult := by
  unfold Obligations.XmInitResult
  intro s
  constructor
  · intro hok
    rw [exec_xmInit, xmInit_ok hok, initWrote_eq]
    rfl
  · intro k hk hok hfail
    rw [exec_xmInit, xmInit_failed hk hok hfail, initWrote_eq]
    rfl

/-- Settles O37: with an expander each of the four is one register write of the byte made from the cache. -/
theorem bankOutputResults : Obligations.BankOutputResults := by
  unfold Obligations.BankOutputResults
  intro v on s
  refine ⟨fun habsent => ?_, fun hpresent hok => ?_, fun hpresent hbus => ?_⟩
  · obtain ⟨hwriteB, hred, hgreen, hlight⟩ := bankOutputs_absent habsent
    exact ⟨hwriteB v, hred on, hgreen on, hlight on⟩
  · rw [exec_xmWriteB_present v hpresent, exec_xmSetRed_present on hpresent, exec_xmSetGreen_present on hpresent,
      exec_xmSetBacklight_present on hpresent]
    simp only [writeB_ok _ hok, regWrite_gpioa_ok _ hok, noResult_ok, finish_ok, and_self]
  · rw [exec_xmWriteB_present v hpresent, exec_xmSetRed_present on hpresent, exec_xmSetGreen_present on hpresent,
      exec_xmSetBacklight_present on hpresent]
    simp only [writeB_failed _ hbus, regWrite_gpioa_failed _ hbus, noResult_err, finish_err, Err.code, and_self]

/-- Settles O38: with an expander each read is one register read; the bit test shifts the bit to bit 0. -/
theorem buttonRequestResults : Obligations.ButtonRequestResults := by
  unfold Obligations.ButtonRequestResults
  intro s
  refine ⟨buttonReads_absent, fun hpresent hbus => ?_, fun hpresent hok => ?_,
    fun mask id => ⟨fun hbad => ?_, fun hgood => ?_⟩⟩
  · rw [exec_xmAckInt, ackInt, if_pos hpresent, exec_xmReadButtons, readButtons, if_pos hpresent,
      regRead_failed _ hbus, regRead_failed _ hbus]
    exact ⟨rfl, rfl⟩
  · rw [exec_xmAckInt, ackInt, if_pos hpresent, exec_xmReadButtons, readButtons, if_pos hpresent,
      regRead_ok _ hok, regRead_ok _ hok]
    exact ⟨rfl, rfl⟩
  · have hid : id > 5 := BitVec.lt_def.2 hbad
    rw [exec_xmTestButton, if_pos hid]
    rfl
  · have hid : ¬ id > 5 := mt BitVec.lt_def.1 (Nat.not_lt.2 hgood)
    rw [exec_xmTestButton, if_neg hid, shiftRight_and_one]
    rfl

/-- Settles O39: the gated requests by their equations without an expander; of the others XM.INIT clears
`XM_PRESENT` first, and the three that are left end the same whatever it is. -/
theorem absentExpander : Obligations.AbsentExpander := by
  unfold Obligations.AbsentExpander
  intro s
  constructor
  · intro habsent
    obtain ⟨hwriteB, hred, hgreen, hlight⟩ := bankOutputs_absent habsent
    exact ⟨hwriteB, hred, hgreen, hlight, buttonReads_absent habsent⟩
  · intro present
    refine ⟨exec_xmInit_setPresent present s, fun a b i hi t ht => ?_⟩
    obtain rfl | rfl | rfl := hi
    · exact exec_xmWrite_setPresent present ht
    · exact exec_xmRead_setPresent present ht
    · exact exec_xmTestButton_setPresent present ht

end

/-! # The display (41_lcd.md R170 to R191)

What the requests of U3 send, given what the bus answers, and eight statements on them (O41, O42, O44 to O49). The
machine's operations are runs of `sendList`; a request that ends as such a run does is a `sends`. -/

namespace Sys2Proof.Machine

/-! ## A request that is a run of bytes -/

/-- A request that ends as a run of bytes does sends exactly them. -/
theorem sends_sendList (xs : List Sent) (s : State) : sends (finish (sendList xs s).noResult) xs s :=
  sendsThen_of_sendList
    (fun t hok => by rw [hok, noResult_ok, finish_ok])
    (fun t herr => by rw [herr, noResult_err, finish_err]; rfl)

theorem sends_send (b : Byte) (rs : Bool) (s : State) :
    sends (finish (send b rs s).noResult) [plainOf b rs] s := by
  rw [← sendOne_plain, ← sendList_one]
  exact sends_sendList _ s

theorem sends_command {s : State} (b : Byte) (h : s.lcdPresent = true) :
    sends (finish (command b s).noResult) [commandOf b] s := by
  rw [command_eq b s h, ← sendList_one]
  exact sends_sendList _ s

theorem command_absent {s : State} (b : Byte) (h : s.lcdPresent = false) : command b s = .ok () s := by
  simp [command, h]

/-- The state after a command: the settle delay of R172 follows clear, home, and home with its ignored bit. -/
theorem sent_commandOf (b : Byte) (s : State) : s.sent (commandOf b) =
    if b = 0x01 ∨ b = 0x02 ∨ b = 0x03 then (s.wroteB (sendBytes b false s.cacheB)).settle
    else s.wroteB (sendBytes b false s.cacheB) := by
  simp only [State.sent, commandOf, decide_eq_true_eq]

/-! ## LCD.SEND and LCD.DATA (R171, R173) -/

theorem exec_lcdSend (b : Byte) (rs : Bool) (s : State) : exec (.lcdSend b (boolByte rs)) s =
    finish (if s.lcdPresent then (send b rs s).noResult else .ok [] s) := by
  cases rs <;> rfl

theorem exec_lcdData (b : Byte) (s : State) : exec (.lcdData b) s =
    finish (if s.lcdPresent then (send b true s).noResult else .ok [] s) := rfl

/-! ## LCD.COMMAND and the requests that are one fixed command (R172, R177, R178, R185, R186) -/

theorem exec_lcdCommand (b : Byte) (s : State) :
    exec (.lcdCommand b) s = finish (command b s).noResult := rfl

theorem exec_lcdClear (s : State) : exec .lcdClear s = finish (command 0x01 s).noResult := rfl

theorem exec_lcdHome (s : State) : exec .lcdHome s = finish (command 0x02 s).noResult := rfl

theorem exec_lcdScrollLeft (s : State) : exec .lcdScrollLeft s = finish (command 0x18 s).noResult := rfl

theorem exec_lcdScrollRight (s : State) : exec .lcdScrollRight s = finish (command 0x1C s).noResult := rfl

/-! ## The setters (R179 to R184, R191) -/

theorem exec_lcdSetDisplay (on : Bool) (s : State) :
    exec (.lcdSetDisplay (boolByte on)) s = finish (setDctrl 0b100 on s).noResult := by
  cases on <;> rfl

theorem exec_lcdSetCursor (on : Bool) (s : State) :
    exec (.lcdSetCursor (boolByte on)) s = finish (setDctrl 0b010 on s).noResult := by
  cases on <;> rfl

theorem exec_lcdSetBlink (on : Bool) (s : State) :
    exec (.lcdSetBlink (boolByte on)) s = finish (setDctrl 0b001 on s).noResult := by
  cases on <;> rfl

theorem exec_lcdLeftToRight (s : State) : exec .lcdLeftToRight s = finish (setEntry 0b10 true s).noResult := rfl

theorem exec_lcdRightToLeft (s : State) : exec .lcdRightToLeft s = finish (setEntry 0b10 false s).noResult := rfl

theorem exec_lcdSetAutoscroll (on : Bool) (s : State) :
    exec (.lcdSetAutoscroll (boolByte on)) s = finish (setEntry 0b01 on s).noResult := by
  cases on <;> rfl

section

variable {i : Instr} {s : State}

/-- A setter of `DCTRL` writes the field first, so the bytes go out from the state with the new field. -/
theorem dctrlSetter_results (mask : BitVec 3) (value : Bool)
    (hi : exec i s = finish (setDctrl mask value s).noResult) :
    (s.lcdPresent = false → exec i s = .next (s.respond [0])) ∧
    (s.lcdPresent = true →
      sends (exec i s) [commandOf (0x08 ||| (setBits mask value s.dctrl).setWidth 8)]
        { s with dctrl := setBits mask value s.dctrl }) := by
  rw [hi]
  constructor
  · intro habsent
    simp [setDctrl, habsent]
  · intro hpresent
    rw [setDctrl, if_pos hpresent]
    exact sends_command (s := { s with dctrl := setBits mask value s.dctrl }) _ hpresent

/-- A setter of `ENTRY`, likewise. -/
theorem entrySetter_results (mask : BitVec 2) (value : Bool)
    (hi : exec i s = finish (setEntry mask value s).noResult) :
    (s.lcdPresent = false → exec i s = .next (s.respond [0])) ∧
    (s.lcdPresent = true →
      sends (exec i s) [commandOf (0x04 ||| (setBits mask value s.entry).setWidth 8)]
        { s with entry := setBits mask value s.entry }) := by
  rw [hi]
  constructor
  · intro habsent
    simp [setEntry, habsent]
  · intro hpresent
    rw [setEntry, if_pos hpresent]
    exact sends_command (s := { s with entry := setBits mask value s.entry }) _ hpresent

end

/-! ## LCD.RESET and LCD.INIT (R175, R176) -/

theorem exec_lcdReset (s : State) : exec .lcdReset s = finish (lcdReset s).noResult := rfl

theorem exec_lcdInit (s : State) : exec .lcdInit s = finish (lcdInit s).noResult := rfl

section

variable {s t : State}

theorem lcdInit_absent (h : s.xmPresent = false) :
    lcdInit s = .err .hardwareAbsent { s with lcdPresent := false } := by
  simp [lcdInit, h]

/-- LCD.INIT ends as the bytes of LCD.RESET do, once the function-set bytes are sent. -/
theorem lcdInit_of_functionSet_ok (h : s.xmPresent = true)
    (hset : sendList [plainOf 0x33 false, plainOf 0x32 false, plainOf 0x28 false]
      { s with lcdPresent := false } = .ok () t) :
    (∀ u, sendList [commandOf 0x0C, commandOf 0x06, commandOf 0x01, commandOf 0x02]
        { t with lcdPresent := true, entry := 0b10, dctrl := 0b100 } = .ok () u → lcdInit s = .ok () u) ∧
    ∀ u, sendList [commandOf 0x0C, commandOf 0x06, commandOf 0x01, commandOf 0x02]
        { t with lcdPresent := true, entry := 0b10, dctrl := 0b100 } = .err .bus u →
      lcdInit s = .err .hardwareAbsent { u with lcdPresent := false } := by
  rw [lcdInit_eq s h, hset, andThen_ok]
  exact ⟨fun u hok => by rw [hok], fun u herr => by rw [herr]⟩

theorem lcdInit_of_functionSet_failed (h : s.xmPresent = true)
    (hset : sendList [plainOf 0x33 false, plainOf 0x32 false, plainOf 0x28 false]
      { s with lcdPresent := false } = .err .bus t) :
    lcdInit s = .err .hardwareAbsent { t with lcdPresent := false } := by
  rw [lcdInit_eq s h, hset, andThen_err]

end

/-! ## Addresses in a command byte (R100) -/

/-- Below a command's bit, its operand may be added instead of set. -/
theorem ofNat_two_pow_or {k n : Nat} (h : n < 2 ^ k) :
    BitVec.ofNat 8 (2 ^ k) ||| BitVec.ofNat 8 n = BitVec.ofNat 8 (2 ^ k + n) := by
  rw [← BitVec.ofNat_or]
  simpa using congrArg (BitVec.ofNat 8) (Nat.two_pow_add_eq_or_of_lt h 1).symm

theorem cmdSetDdram_or {a : Int} (h0 : 0 ≤ a) (h : a ≤ 0x7F) :
    cmdSetDdram ||| BitVec.ofInt 8 a = BitVec.ofInt 8 (0x80 + a) := by
  obtain ⟨n, rfl⟩ := Int.eq_ofNat_of_zero_le h0
  exact ofNat_two_pow_or (k := 7) (by omega)

theorem cmdSetCgram_or {slot : Byte} (h : slot.toNat ≤ 7) :
    cmdSetCgram ||| (slot <<< 3) = BitVec.ofNat 8 (0x40 + 8 * slot.toNat) := by
  have hshift : slot <<< 3 = BitVec.ofNat 8 (8 * slot.toNat) := by
    apply BitVec.eq_of_toNat_eq
    simp [Nat.shiftLeft_eq, Nat.mul_comm]
  rw [hshift]
  exact ofNat_two_pow_or (k := 6) (by omega)

/-! ## LCD.SET_POS (R187, R188) -/

/-- The offsets of the rows, a row below 0 taken as row 0 and a row above 2 as row 1 (R187). -/
theorem rowOffset_toNat (row : Byte) : ((rowOffset row).toNat : Int) =
    if row.toInt < 0 then 0x00 else if row.toInt > 2 then 0x40
    else if row.toInt = 0 then 0x00 else if row.toInt = 1 then 0x40 else 0x14 := by
  simp only [rowOffset]
  generalize row.toInt = r
  split_ifs with hneg hbig hzero hone
  · rfl
  · rfl
  · subst hzero; rfl
  · subst hone; rfl
  · obtain rfl : r = 2 := by omega
    rfl

theorem exec_lcdSetPos (col row : Byte) (s : State) :
    exec (.lcdSetPos col row) s = finish (setPos col row s).noResult := rfl

section

variable {col row : Byte} {s : State}

theorem setPos_absent (h : s.lcdPresent = false) : setPos col row s = .ok () s := by
  simp [setPos, h]

theorem setPos_refused (h : s.lcdPresent = true)
    (hbad : col.toInt < 0 ∨ 0x7F < col.toInt + (rowOffset row).toNat) :
    setPos col row s = .err .configuration s := by
  rw [setPos, if_pos h]
  exact if_pos hbad

theorem setPos_eq (h : s.lcdPresent = true) (hcol : 0 ≤ col.toInt)
    (hlast : col.toInt + (rowOffset row).toNat ≤ 0x7F) :
    setPos col row s = command (BitVec.ofInt 8 (0x80 + (col.toInt + (rowOffset row).toNat))) s := by
  have hgood : ¬ (col.toInt < 0 ∨ col.toInt + (rowOffset row).toNat > 0x7F) := by omega
  rw [setPos, if_pos h, ← cmdSetDdram_or (by omega) hlast]
  exact if_neg hgood

end

/-! ## LCD.MESSAGE and LCD.CREATE_CHAR (R189, R190) -/

theorem exec_lcdMessage (text : List Byte) (s : State) :
    exec (.lcdMessage text) s = finish (message text s).noResult := rfl

theorem exec_lcdCreateChar (slot : Byte) (bitmap : List Byte) (s : State) :
    exec (.lcdCreateChar slot bitmap) s = finish (createChar slot bitmap s).noResult := rfl

section

variable {slot : Byte} {bitmap : List Byte} {s : State}

theorem message_absent (text : List Byte) (h : s.lcdPresent = false) : message text s = .ok () s := by
  simp [message, h]

theorem message_eq (text : List Byte) (h : s.lcdPresent = true) :
    message text s = sendList (textOf text) s := by
  rw [message, if_pos h, putChars_eq text s h]

theorem createChar_absent (h : s.lcdPresent = false) : createChar slot bitmap s = .ok () s := by
  simp [createChar, h]

/-- The check of the operands, on the slot's number. -/
theorem createChar_bad_iff :
    (slot > 7 ∨ bitmap.length > 8) ↔ 7 < slot.toNat ∨ 8 < bitmap.length :=
  or_congr BitVec.lt_def Iff.rfl

theorem createChar_refused (h : s.lcdPresent = true) (hbad : 7 < slot.toNat ∨ 8 < bitmap.length) :
    createChar slot bitmap s = .err .configuration s := by
  rw [createChar, if_pos h, if_pos (createChar_bad_iff.2 hbad)]

theorem createChar_eq (h : s.lcdPresent = true) (hslot : slot.toNat ≤ 7) (hrows : bitmap.length ≤ 8) :
    createChar slot bitmap s =
      sendList (commandOf (BitVec.ofNat 8 (0x40 + 8 * slot.toNat)) :: bitmap.map (plainOf · true)) s := by
  have hgood : ¬ (slot > 7 ∨ bitmap.length > 8) := by
    rw [createChar_bad_iff]
    omega
  rw [createChar, if_pos h, if_neg hgood, cmdSetCgram_or hslot, command_eq _ s h]
  simp only [sendData_eq, sendList]

end

end Sys2Proof.Machine

/-! ## The eight statements -/

section

open Sys2Proof Sys2Proof.Machine

/-- Settles O41: with a display both requests are `Send`, one byte with no settle delay. -/
theorem sendResults : Obligations.SendResults := by
  unfold Obligations.SendResults
  intro b rs s
  rw [exec_lcdSend, exec_lcdData]
  refine ⟨fun habsent => ?_, fun hpresent => ?_⟩
  · simp [habsent]
  · rw [if_pos hpresent, if_pos hpresent]
    obtain ⟨hok, hfailed⟩ := sends_send b rs s
    exact ⟨hok, hfailed, sends_send b true s⟩

/-- Settles O42: all five are LCD.COMMAND of one byte, and what follows the byte is in `sent_commandOf`. -/
theorem commandResults : Obligations.CommandResults := by
  unfold Obligations.CommandResults
  intro b s
  rw [exec_lcdCommand, exec_lcdClear, exec_lcdHome, exec_lcdScrollLeft, exec_lcdScrollRight]
  refine ⟨fun habsent => ?_, fun hpresent => ?_⟩
  · simp only [command_absent _ habsent, noResult_ok, finish_ok, and_self]
  · obtain ⟨hok, hfailed⟩ := sends_command b hpresent
    refine ⟨fun hbus => ?_, hfailed, sends_command 0x01 hpresent, sends_command 0x02 hpresent,
      sends_command 0x18 hpresent, sends_command 0x1C hpresent⟩
    rw [← sent_commandOf]
    exact hok hbus

/-- Settles O44: three requests set one bit of `DCTRL`, three one bit of `ENTRY`. -/
theorem setterResults : Obligations.SetterResults := by
  unfold Obligations.SetterResults
  intro on s
  exact ⟨dctrlSetter_results 0b100 on (exec_lcdSetDisplay on s),
    dctrlSetter_results 0b010 on (exec_lcdSetCursor on s),
    dctrlSetter_results 0b001 on (exec_lcdSetBlink on s),
    entrySetter_results 0b10 true (exec_lcdLeftToRight s),
    entrySetter_results 0b10 false (exec_lcdRightToLeft s),
    entrySetter_results 0b01 on (exec_lcdSetAutoscroll on s)⟩

/-- Settles O45: with a display LCD.RESET is the run of its four commands. -/
theorem lcdResetResult : Obligations.LcdResetResult := by
  unfold Obligations.LcdResetResult
  intro s
  rw [exec_lcdReset]
  refine ⟨fun habsent => ?_, fun hpresent => ?_⟩
  · simp [lcdReset, habsent]
  · rw [lcdReset_eq s hpresent]
    exact sends_sendList _ _

/-- Settles O46: the function-set bytes, then the bytes of LCD.RESET, each run sent whole or ended by a failure
that leaves the display absent. -/
theorem lcdInitResult : Obligations.LcdInitResult := by
  unfold Obligations.LcdInitResult
  intro s
  rw [exec_lcdInit]
  refine ⟨fun habsent => ?_, fun hpresent => ?_⟩
  · rw [lcdInit_absent habsent]
    rfl
  · refine sendsThen_of_sendList (fun t hset => ?_) (fun t hset => ?_)
    · obtain ⟨hok, hfailed⟩ := lcdInit_of_functionSet_ok hpresent hset
      refine sendsThen_of_sendList (fun u hreset => ?_) (fun u hreset => ?_)
      · rw [hok u hreset]
        rfl
      · rw [hfailed u hreset]
        rfl
    · rw [lcdInit_of_functionSet_failed hpresent hset]
      rfl

/-- Settles O47: the row's offset is `rowOffset_toNat`, and the address is checked before it is sent. -/
theorem setPosResult : Obligations.SetPosResult := by
  unfold Obligations.SetPosResult
  intro col row s
  rw [exec_lcdSetPos, ← rowOffset_toNat]
  refine ⟨fun habsent => ?_, fun hpresent hbad => ?_, fun hpresent hcol hlast => ?_⟩
  · rw [setPos_absent habsent]
    rfl
  · rw [setPos_refused hpresent hbad]
    rfl
  · rw [setPos_eq hpresent hcol hlast]
    exact sends_command _ hpresent

/-- Settles O48: with a display LCD.MESSAGE is the run of `textOf`. -/
theorem messageResult : Obligations.MessageResult := by
  unfold Obligations.MessageResult
  intro text s
  rw [exec_lcdMessage]
  refine ⟨fun habsent => ?_, fun hpresent => ?_⟩
  · rw [message_absent text habsent]
    rfl
  · rw [message_eq text hpresent]
    exact sends_sendList _ s

/-- Settles O49: slot and glyph are checked before the address is sent. -/
theorem createCharResult : Obligations.CreateCharResult := by
  unfold Obligations.CreateCharResult
  intro slot bitmap s
  rw [exec_lcdCreateChar]
  refine ⟨fun habsent => ?_, fun hpresent hbad => ?_, fun hpresent hslot hrows => ?_⟩
  · rw [createChar_absent habsent]
    rfl
  · rw [createChar_refused hpresent hbad]
    rfl
  · rw [createChar_eq hpresent hslot hrows]
    exact sends_sendList _ s

end

/-! # The codec (42_codec.md R220 to R235)

What the requests of U1 end in, in the codec's rationals, and eight statements on them (O22 to O26, O29, O33, O34).
A decode is a division of the 16-bit word; an encode is a quantisation of the clamped value. -/

namespace Sys2Proof.Machine

/-! ## Operand bytes (R93, R112) -/

theorem ne_of_one_lt {b : Byte} (h : 1 < b.toNat) : b ≠ 0 ∧ b ≠ 1 := by
  constructor <;> rintro rfl <;> simp at h

@[simp] theorem extOf_boolByte (e : Bool) : extOf (boolByte e) = some e := by
  cases e <;> rfl

theorem extOf_eq_none {ext : Byte} (h : 1 < ext.toNat) : extOf ext = none := by
  obtain ⟨h0, h1⟩ := ne_of_one_lt h
  rw [extOf, if_neg h0, if_neg h1]

theorem exists_extOf {ext : Byte} (h : ext.toNat ≤ 1) : ∃ e, extOf ext = some e ∧ ext.toNat = e.toNat := by
  have hext : ext = 0 ∨ ext = 1 := by bv_omega
  obtain rfl | rfl := hext
  · exact ⟨false, rfl, rfl⟩
  · exact ⟨true, rfl, rfl⟩

theorem resOf_eq_none {res : Byte} (h : res.toNat < 9 ∨ 12 < res.toNat) : resOf res = none := by
  have h9 : res ≠ 9 := by rintro rfl; simp at h
  have h10 : res ≠ 10 := by rintro rfl; simp at h
  have h11 : res ≠ 11 := by rintro rfl; simp at h
  have h12 : res ≠ 12 := by rintro rfl; simp at h
  rw [resOf, if_neg h9, if_neg h10, if_neg h11, if_neg h12]

theorem exists_resOf {res : Byte} (hlow : 9 ≤ res.toNat) (hhigh : res.toNat ≤ 12) :
    ∃ r, resOf res = some r ∧ res.toNat = resBits r := by
  have hres : res = 9 ∨ res = 10 ∨ res = 11 ∨ res = 12 := by bv_omega
  obtain rfl | rfl | rfl | rfl := hres
  · exact ⟨.r9, rfl, rfl⟩
  · exact ⟨.r10, rfl, rfl⟩
  · exact ⟨.r11, rfl, rfl⟩
  · exact ⟨.r12, rfl, rfl⟩

theorem channelOf_eq_none {ch : Byte} (h : 1 < ch.toNat) : channelOf ch = none := by
  obtain ⟨h0, h1⟩ := ne_of_one_lt h
  rw [channelOf, if_neg h0, if_neg h1]

theorem exists_channelOf {ch : Byte} {c : Channel} {s : State} (h : (ch = 0 ∧ c = s.ch0) ∨ (ch = 1 ∧ c = s.ch1)) :
    ∃ i, channelOf ch = some i ∧ s.channel i = c := by
  obtain ⟨rfl, rfl⟩ | ⟨rfl, rfl⟩ := h
  · exact ⟨.inside, rfl, rfl⟩
  · exact ⟨.outside, rfl, rfl⟩

theorem thresholdPointer_eq_none {which : Byte} (h : 1 < which.toNat) : thresholdPointer which = none := by
  obtain ⟨h0, h1⟩ := ne_of_one_lt h
  rw [thresholdPointer, if_neg h0, if_neg h1]

theorem thresholdPointer_eq_some {which ptr : Byte} (h : (which = 0 ∧ ptr = 0x02) ∨ (which = 1 ∧ ptr = 0x03)) :
    thresholdPointer which = some ptr := by
  obtain ⟨rfl, rfl⟩ | ⟨rfl, rfl⟩ := h <;> rfl

/-! ## What a binary64 denotes (R234) -/

/-- Reads a normal binary64 with a fractional part, given by its fields: sign, exponent, fraction. -/
theorem f64Value_of_fields {x : F64} {negative : Bool} {e f : Nat}
    (hx : x.toNat = negative.toNat * 2 ^ 63 + e * 2 ^ 52 + f) (he0 : 0 < e) (he : e < 1075) (hf : f < 2 ^ 52) :
    f64Value x =
      .finite { mant := if negative then -((2 ^ 52 + f : Nat) : Int) else (2 ^ 52 + f : Nat), exp := 1075 - e } := by
  have hbit := Bool.toNat_le negative
  have hsign : x.getLsbD 63 = negative := by
    have htop : x.toNat / 2 ^ 63 % 2 = negative.toNat := by omega
    rw [BitVec.getLsbD, Nat.testBit_eq_decide_div_mod_eq, htop]
    cases negative <;> rfl
  have hexp : (x.extractLsb' 52 11).toNat = e := by
    rw [BitVec.extractLsb'_toNat, Nat.shiftRight_eq_div_pow]
    omega
  have hfrac : (x.extractLsb' 0 52).toNat = f := by
    rw [BitVec.extractLsb'_toNat, Nat.shiftRight_zero]
    omega
  simp only [f64Value, hsign, hexp, hfrac]
  rw [if_neg (by omega), if_neg (by omega), if_pos he]

theorem f64Value_eq_nan_iff (x : F64) : f64Value x = .nan ↔ isNaN x := by
  simp only [f64Value, isNaN]
  generalize (x.extractLsb' 52 11).toNat = e
  generalize (x.extractLsb' 0 52).toNat = f
  split_ifs <;> simp_all

/-- A whole number of sixteenths below 2^53 as a normal binary64: its leading bit, shifted to bit 52, is the hidden
one. -/
theorem f64OfTemp_toNat {t : Temp} (h0 : t.sixteenths ≠ 0) (h : t.sixteenths.natAbs < 2 ^ 53) :
    ∃ e f, e ≤ 52 ∧ f < 2 ^ 52 ∧ 2 ^ 52 + f = t.sixteenths.natAbs * 2 ^ (52 - e) ∧
      (f64OfTemp t).toNat = (decide (t.sixteenths < 0)).toNat * 2 ^ 63 + (e + 1019) * 2 ^ 52 + f := by
  have hm0 : t.sixteenths.natAbs ≠ 0 := Int.natAbs_ne_zero.2 h0
  have hword : f64OfTemp t = BitVec.ofNat 64 ((decide (t.sixteenths < 0)).toNat * 2 ^ 63 +
      (t.sixteenths.natAbs.log2 + 1019) * 2 ^ 52 +
      (t.sixteenths.natAbs * 2 ^ (52 - t.sixteenths.natAbs.log2) - 2 ^ 52)) := by
    simp only [f64OfTemp, if_neg hm0, if_pos h]
    by_cases hneg : t.sixteenths < 0 <;> simp [hneg]
  generalize t.sixteenths.natAbs = m at *
  have he : m.log2 ≤ 52 := Nat.lt_succ_iff.1 ((Nat.log2_lt hm0).2 h)
  have hlow : 2 ^ 52 ≤ m * 2 ^ (52 - m.log2) := calc
    2 ^ 52 = 2 ^ m.log2 * 2 ^ (52 - m.log2) := by rw [← Nat.pow_add, Nat.add_sub_cancel' he]
    _ ≤ m * 2 ^ (52 - m.log2) := Nat.mul_le_mul_right _ (Nat.log2_self_le hm0)
  have hhigh : m * 2 ^ (52 - m.log2) < 2 ^ 53 := calc
    m * 2 ^ (52 - m.log2) < 2 ^ (m.log2 + 1) * 2 ^ (52 - m.log2) :=
      Nat.mul_lt_mul_of_pos_right Nat.lt_log2_self (Nat.two_pow_pos _)
    _ = 2 ^ 53 := by rw [← Nat.pow_add]; congr 1; omega
  refine ⟨m.log2, m * 2 ^ (52 - m.log2) - 2 ^ 52, he, by omega, by omega, ?_⟩
  rw [hword, BitVec.toNat_ofNat]
  refine Nat.mod_eq_of_lt ?_
  have hsign := Bool.toNat_le (decide (t.sixteenths < 0))
  omega

/-- The binary64 of a temperature is exact wherever the codec fixes it. -/
theorem isF64Of_f64OfTemp {t : Temp} (h : t.sixteenths.natAbs < 2 ^ 53) : isF64Of (f64OfTemp t) t.celsius := by
  by_cases h0 : t.sixteenths = 0
  · have hzero : f64OfTemp t = 0 := by simp [f64OfTemp, h0]
    rw [hzero]
    exact ⟨⟨{ mant := 0, exp := 1074 }, by decide, by simp [dyadicRat, Temp.celsius, h0]⟩, by decide⟩
  obtain ⟨e, f, he, hf, hmant, hword⟩ := f64OfTemp_toNat h0 h
  refine ⟨⟨_, f64Value_of_fields hword (by omega) (by omega) hf, ?_⟩, fun hnegzero => ?_⟩
  · have hsigned : (if decide (t.sixteenths < 0) then -((2 ^ 52 + f : Nat) : Int) else (2 ^ 52 + f : Nat)) =
        t.sixteenths * 2 ^ (52 - e) := by
      rw [hmant]
      push_cast
      by_cases hneg : t.sixteenths < 0
      · simp [hneg, abs_of_neg hneg]
      · simp [hneg, abs_of_nonneg (not_lt.1 hneg)]
    have hexp : 1075 - (e + 1019) = (52 - e) + 4 := by omega
    simp only [dyadicRat, Temp.celsius]
    rw [hsigned, hexp, pow_add]
    push_cast
    rw [mul_comm, mul_div_mul_left _ _ (by positivity)]
    norm_num
  · have hbits : (0x8000000000000000 : F64).toNat = 2 ^ 63 := rfl
    rw [hnegzero, hbits] at hword
    have hsign := Bool.toNat_le (decide (t.sixteenths < 0))
    omega

/-! ## Truncation and clamping in rationals (R10, R224) -/

theorem truncRat_of_nonneg {q : Rat} (h : 0 ≤ q) : truncRat q = ⌊q⌋ := if_pos h

theorem truncRat_of_nonpos {q : Rat} (h : q ≤ 0) : truncRat q = ⌈q⌉ := by
  obtain rfl | hneg := h.eq_or_lt
  · simp [truncRat]
  · exact if_neg (not_le.2 hneg)

theorem truncRat_intCast_div (a : Int) (b : Nat) : truncRat ((a : Rat) / b) = a.tdiv b := by
  obtain h | h := le_total 0 a
  · rw [truncRat_of_nonneg (by positivity), Rat.floor_intCast_div_natCast, Int.tdiv_eq_ediv_of_nonneg h]
  · have hneg : (a : Rat) / b ≤ 0 := div_nonpos_of_nonpos_of_nonneg (by exact_mod_cast h) (by positivity)
    rw [truncRat_of_nonpos hneg, Rat.ceil_intCast_div_natCast,
      ← Int.tdiv_eq_ediv_of_nonneg (Int.neg_nonneg.2 h), Int.neg_tdiv, neg_neg]

theorem abs_truncRat_sub_lt (q : Rat) : |(truncRat q : Rat) - q| < 1 := by
  obtain h | h := le_total 0 q
  · rw [truncRat_of_nonneg h, abs_sub_comm, abs_of_nonneg (sub_nonneg.2 (Int.floor_le q))]
    linarith [Int.lt_floor_add_one q]
  · rw [truncRat_of_nonpos h, abs_of_nonneg (sub_nonneg.2 (Int.le_ceil q))]
    linarith [Int.ceil_lt_add_one q]

@[simp] theorem dyadicRat_int (n : Int) : dyadicRat { mant := n, exp := 0 } = n := by simp [dyadicRat]

theorem truncScaled_eq (k : Nat) (d : DyadicNumber) : truncScaled k d = truncRat (dyadicRat d * 2 ^ k) := by
  have hq : dyadicRat d * 2 ^ k = ((d.mant * 2 ^ k : Int) : Rat) / (2 ^ d.exp : Nat) := by
    simp only [dyadicRat]
    push_cast
    ring
  rw [hq, truncRat_intCast_div, truncScaled]
  push_cast
  rfl

theorem dyadicRat_clampDyadic {lo hi : Int} (h : lo ≤ hi) (d : DyadicNumber) :
    dyadicRat (clampDyadic lo hi d) = min (max (dyadicRat d) lo) hi := by
  have hpos : (0 : Rat) < 2 ^ d.exp := by positivity
  have hlo : d.mant < lo * 2 ^ d.exp ↔ dyadicRat d < lo := by
    rw [dyadicRat, div_lt_iff₀ hpos]
    exact_mod_cast Iff.rfl
  have hhi : hi * 2 ^ d.exp < d.mant ↔ (hi : Rat) < dyadicRat d := by
    rw [dyadicRat, lt_div_iff₀ hpos]
    exact_mod_cast Iff.rfl
  have hle : (lo : Rat) ≤ hi := by exact_mod_cast h
  simp only [clampDyadic, hlo, hhi]
  split_ifs with hbelow habove
  · rw [dyadicRat_int, max_eq_right hbelow.le, min_eq_left hle]
  · rw [dyadicRat_int, min_eq_right (habove.le.trans (le_max_left _ _))]
  · rw [max_eq_left (not_lt.1 hbelow), min_eq_left (not_lt.1 habove)]

/-- Quantisation, in rationals: clamp, scale, truncate (R222 to R224). -/
theorem quantise_eq {lo hi : Int} (h : lo ≤ hi) (k : Nat) (v : F64Value) :
    quantise lo hi k v = (clampedValue lo hi v).map fun xc => truncRat (xc * 2 ^ k) := by
  match v with
  | .nan => rfl
  | .infinite true => simp [quantise, clampedValue, truncScaled_eq]
  | .infinite false => simp [quantise, clampedValue, truncScaled_eq]
  | .finite d => simp [quantise, clampedValue, truncScaled_eq, dyadicRat_clampDyadic h]

theorem exists_clampedValue (lo hi : Rat) {x : F64} (h : ¬ isNaN x) :
    ∃ xc, clampedValue lo hi (f64Value x) = some xc := by
  rw [← f64Value_eq_nan_iff] at h
  match hv : f64Value x with
  | .nan => exact absurd hv h
  | .infinite true => exact ⟨_, rfl⟩
  | .infinite false => exact ⟨_, rfl⟩
  | .finite _ => exact ⟨_, rfl⟩

/-! ## Decoding (R221, R227) -/

/-- The bytes' word shifted right, as the high byte's part and the low byte's part. -/
theorem code_eq_add (hi lo : Byte) {k : Nat} (hk : k ≤ 8) :
    (hi.toNat <<< (8 - k)) ||| (lo.toNat >>> k) = hi.toNat * 2 ^ (8 - k) + lo.toNat / 2 ^ k := by
  have hlow : lo.toNat / 2 ^ k < 2 ^ (8 - k) := by
    rw [Nat.div_lt_iff_lt_mul (Nat.two_pow_pos k), ← Nat.pow_add, Nat.sub_add_cancel hk]
    exact lo.isLt
  rw [Nat.shiftRight_eq_div_pow, ← Nat.shiftLeft_add_eq_or_of_lt hlow, Nat.shiftLeft_eq]

theorem word_shiftRight (hi lo : Byte) {k : Nat} (hk : k ≤ 8) :
    ((hi.toNat <<< 8) ||| lo.toNat) >>> k = (hi.toNat <<< (8 - k)) ||| (lo.toNat >>> k) := by
  rw [Nat.shiftRight_or_distrib, Nat.shiftLeft_sub _ hk]

theorem signedCode_msb (w : Nat) (hi : Byte) (u : Nat) :
    signedCode w hi.msb u = if 128 ≤ hi.toNat then (u : Int) - 2 ^ w else u := by
  simp [signedCode, BitVec.msb_eq_decide]

theorem decodeA_raw (ext : Bool) (hi lo : Byte) : (decodeA ext hi lo).raw =
    signedCode (12 + ext.toNat) hi.msb (hi.toNat * 2 ^ (4 + ext.toNat) + lo.toNat / 2 ^ (4 - ext.toNat)) := by
  have hcode := code_eq_add hi lo (k := 4 - ext.toNat) (by omega)
  have hshift : 8 - (4 - ext.toNat) = 4 + ext.toNat := by have := Bool.toNat_le ext; omega
  rw [hshift] at hcode
  rw [← hcode]
  rfl

theorem decodeB_raw (r : Resolution) (hi lo : Byte) : (decodeB r hi lo).raw =
    signedCode (resBits r) hi.msb (hi.toNat * 2 ^ (resBits r - 8) + lo.toNat / 2 ^ (16 - resBits r)) := by
  have hword := (word_shiftRight hi lo (k := 16 - resBits r) (by cases r <;> decide)).trans
    (code_eq_add hi lo (by cases r <;> decide))
  have hshift : 8 - (16 - resBits r) = resBits r - 8 := by cases r <;> rfl
  rw [hshift] at hword
  rw [← hword]
  rfl

theorem decodeA_sixteenths (ext : Bool) (hi lo : Byte) :
    (decodeA ext hi lo).value.sixteenths = (decodeA ext hi lo).raw := rfl

theorem decodeB_sixteenths (r : Resolution) (hi lo : Byte) :
    (decodeB r hi lo).value.sixteenths = (decodeB r hi lo).raw * 2 ^ (12 - resBits r) := rfl

/-- The range of variant A (R234). -/
theorem tempInRange_decodeA (ext : Bool) (hi lo : Byte) : tempInRange (decodeA ext hi lo).value := by
  have hhi := hi.isLt
  have hlo := lo.isLt
  rw [tempInRange, decodeA_sixteenths, decodeA_raw, signedCode_msb]
  cases ext
  · simp only [Bool.toNat_false]; omega
  · simp only [Bool.toNat_true]; omega

/-- The range of variant B (R234). -/
theorem tempInRange_decodeB (r : Resolution) (hi lo : Byte) : tempInRange (decodeB r hi lo).value := by
  have hhi := hi.isLt
  have hlo := lo.isLt
  rw [tempInRange, decodeB_sixteenths, decodeB_raw, signedCode_msb]
  cases r <;> simp only [resBits] <;> omega

theorem isF64Of_of_tempInRange {t : Temp} (h : tempInRange t) : isF64Of (f64OfTemp t) t.celsius := by
  obtain ⟨hlow, hhigh⟩ := h
  exact isF64Of_f64OfTemp (by omega)

/-- One unit of a variant-B code weighs `2^-(R-8)` (R227). -/
theorem decodeB_celsius (r : Resolution) (hi lo : Byte) :
    (decodeB r hi lo).value.celsius = ((decodeB r hi lo).raw : Rat) / 2 ^ (resBits r - 8) := by
  rw [Temp.celsius, decodeB_sixteenths]
  cases r <;> simp only [resBits] <;> push_cast <;> ring

theorem decodeB_r12_eq_decodeA (hi lo : Byte) : decodeB .r12 hi lo = decodeA false hi lo := by
  have hraw : (decodeB .r12 hi lo).raw = (decodeA false hi lo).raw := by
    rw [decodeA_raw, decodeB_raw]
    rfl
  have hvalue : (decodeB .r12 hi lo).value.sixteenths = (decodeA false hi lo).value.sixteenths := by
    rw [decodeB_sixteenths, decodeA_sixteenths, hraw, resBits, Nat.sub_self, pow_zero, mul_one]
  exact congrArg₂ (fun raw sixteenths => Reading.mk raw ⟨sixteenths⟩) hraw hvalue

/-! ## Encoding (R222, R228) -/

theorem topCode_emod (policy : EncTop) (w : Nat) (q : Rat) :
    (topCode policy w (truncRat q) % 2 ^ w).toNat = unsignedCode policy w q := by
  cases policy <;> simp [topCode, unsignedCode]

theorem highA_eq (ext : Bool) : highA ext = (encodeHighA ext : Rat) := by
  cases ext <;> simp [highA, encodeHighA]

section

variable {policy : EncTop} {ext : Bool} {r : Resolution} {x : F64} {xc : Rat}

theorem encodeA_eq (h : clampedValue (-55) (highA ext) (f64Value x) = some xc) :
    encodeA policy ext x = some (packA ext (topCode policy (12 + ext.toNat) (truncRat (xc * 16)))) := by
  have hle : encodeLow ≤ encodeHighA ext := by cases ext <;> decide
  have hlow : (encodeLow : Rat) = -55 := by simp [encodeLow]
  rw [encodeA, quantise_eq hle, hlow, ← highA_eq, h]
  norm_num

theorem encodeB_eq (h : clampedValue (-55) 128 (f64Value x) = some xc) :
    encodeB policy r x =
      some (packB r (topCode policy (resBits r) (truncRat (xc * 2 ^ (resBits r - 8))))) := by
  have hlow : (encodeLow : Rat) = -55 := by simp [encodeLow]
  have hhigh : (encodeHighB : Rat) = 128 := by simp [encodeHighB]
  rw [encodeB, quantise_eq (by decide), hlow, hhigh, h]
  rfl

theorem encodeA_nan (h : isNaN x) : encodeA policy ext x = none := by
  rw [encodeA, (f64Value_eq_nan_iff x).2 h]
  rfl

theorem encodeB_nan (h : isNaN x) : encodeB policy r x = none := by
  rw [encodeB, (f64Value_eq_nan_iff x).2 h]
  rfl

end

theorem packA_topCode (policy : EncTop) (ext : Bool) (q : Rat) :
    packA ext (topCode policy (12 + ext.toNat) (truncRat q)) =
      (BitVec.ofNat 8 (unsignedCode policy (12 + ext.toNat) q >>> (4 + ext.toNat)),
        BitVec.ofNat 8 (((unsignedCode policy (12 + ext.toNat) q <<< (4 - ext.toNat)) &&& 0xFF) ||| ext.toNat)) := by
  simp only [packA, topCode_emod]

theorem packB_topCode (policy : EncTop) (r : Resolution) (q : Rat) :
    packB r (topCode policy (resBits r) (truncRat q)) =
      (BitVec.ofNat 8 ((unsignedCode policy (resBits r) q <<< (16 - resBits r)) >>> 8),
        BitVec.ofNat 8 ((unsignedCode policy (resBits r) q <<< (16 - resBits r)) &&& 0xFF)) := by
  simp only [packB, topCode_emod]

theorem packA_normal_eq_packB (n : Int) : packA false n = packB .r12 n := by
  have hhigh (u : Nat) : u >>> 4 = u <<< 4 >>> 8 := by
    rw [Nat.shiftRight_add _ 4 4, Nat.shiftLeft_shiftRight]
  simp only [packA, packB, resBits, Bool.toNat_false, Nat.or_zero, Nat.add_zero, Nat.sub_zero, hhigh]

theorem encodeB_r12_eq_encodeA (policy : EncTop) (x : F64) : encodeB policy .r12 x = encodeA policy false x := by
  simp only [encodeA, packA_normal_eq_packB]
  rfl

/-- The high byte of a packed code. -/
theorem packA_fst_toNat (ext : Bool) (n : Int) :
    (packA ext n).1.toNat = (n % 2 ^ (12 + ext.toNat)).toNat / 2 ^ (4 + ext.toNat) := by
  simp only [packA, BitVec.toNat_ofNat, Nat.shiftRight_eq_div_pow]
  cases ext
  · simp only [Bool.toNat_false]; omega
  · simp only [Bool.toNat_true]; omega

/-- Above the bits it discards, the low byte of a packed code holds the code's low bits. -/
theorem packA_snd_div (ext : Bool) (n : Int) :
    (packA ext n).2.toNat / 2 ^ (4 - ext.toNat) = (n % 2 ^ (12 + ext.toNat)).toNat % 2 ^ (4 + ext.toNat) := by
  have hmask (m : Nat) : m &&& 0xFF = m % 2 ^ 8 := Nat.and_two_pow_sub_one_eq_mod m 8
  have hmode : ext.toNat >>> (4 - ext.toNat) = 0 := by cases ext <;> rfl
  generalize hu : (n % 2 ^ (12 + ext.toNat)).toNat = u
  have hlt : ((u <<< (4 - ext.toNat)) % 2 ^ 8) ||| ext.toNat < 2 ^ 8 :=
    Nat.or_lt_two_pow (Nat.mod_lt _ (Nat.two_pow_pos 8)) (by cases ext <;> decide)
  simp only [packA, hu, hmask, BitVec.toNat_ofNat, Nat.mod_eq_of_lt hlt]
  rw [← Nat.shiftRight_eq_div_pow, Nat.shiftRight_or_distrib, hmode, Nat.or_zero, Nat.shiftLeft_eq,
    Nat.shiftRight_eq_div_pow]
  cases ext
  · simp only [Bool.toNat_false]; omega
  · simp only [Bool.toNat_true]; omega

/-- A code that fits its width survives packing. -/
theorem decodeA_packA {ext : Bool} {n : Int} (hlow : -2 ^ (11 + ext.toNat) ≤ n) (hhigh : n < 2 ^ (11 + ext.toNat)) :
    (decodeA ext (packA ext n).1 (packA ext n).2).raw = n := by
  rw [decodeA_raw, packA_snd_div, signedCode_msb, packA_fst_toNat]
  cases ext
  · simp only [Bool.toNat_false] at *; omega
  · simp only [Bool.toNat_true] at *; omega

/-! ## The round trip of variant A (R225) -/

/-- A clamp changes nothing within its range. -/
theorem clampedValue_of_mem {lo hi : Rat} {d : DyadicNumber} (hlow : lo ≤ dyadicRat d) (hhigh : dyadicRat d ≤ hi) :
    clampedValue lo hi (.finite d) = some (dyadicRat d) := by
  rw [clampedValue, max_eq_left hlow, min_eq_left hhigh]

theorem topCode_saturate_mem {w : Nat} {n : Int} (h : -2 ^ w ≤ n) :
    -2 ^ w ≤ topCode .saturate (w + 1) n ∧ topCode .saturate (w + 1) n < 2 ^ w := by
  have hpos : (0 : Int) < 2 ^ w := by positivity
  simp only [topCode, Nat.add_sub_cancel]
  split_ifs <;> omega

/-- Saturation at the top acts on one temperature of the range: 128 in normal mode. -/
theorem topCode_saturate_truncRat {ext : Bool} {q : Rat} (hhigh : q ≤ highA ext) :
    topCode .saturate (12 + ext.toNat) (truncRat (q * 16)) =
      if ext = false ∧ q = 128 then 2047 else truncRat (q * 16) := by
  have hnear := abs_lt.1 (abs_truncRat_sub_lt (q * 16))
  cases ext with
  | true =>
    have hcode : truncRat (q * 16) < 2401 := by
      have hhigh150 : q ≤ 150 := hhigh
      have hcodeRat : (truncRat (q * 16) : Rat) < 2401 := by linarith
      exact_mod_cast hcodeRat
    rw [topCode, if_neg (by simp only [Bool.toNat_true]; omega), if_neg (by simp)]
  | false =>
    have hhigh128 : q ≤ 128 := hhigh
    by_cases htop : q = 128
    · subst htop
      have hcode : truncRat (128 * 16) = 2048 := by norm_num [truncRat]
      rw [hcode]
      rfl
    · have hcode : truncRat (q * 16) < 2048 := by
        by_contra hge
        have hgeRat : (2048 : Rat) ≤ truncRat (q * 16) := by exact_mod_cast not_lt.1 hge
        have hle : (truncRat (q * 16) : Rat) ≤ q * 16 := by
          rw [truncRat_of_nonneg (by linarith)]
          exact Int.floor_le _
        exact htop (le_antisymm hhigh128 (by linarith))
      rw [topCode, if_neg (by simp only [Bool.toNat_false]; omega), if_neg (by simp [htop])]

/-- Decoding the pair of a code gives the code's value. -/
theorem decodeA_encodeA {x : F64} {d : DyadicNumber} {ext : Bool} (hx : f64Value x = .finite d)
    (hlow : -55 ≤ dyadicRat d) (hhigh : dyadicRat d ≤ highA ext) :
    ∃ p, encodeA .saturate ext x = some p ∧ (decodeA ext p.1 p.2).value.celsius =
      if ext = false ∧ dyadicRat d = 128 then 2047 / 16 else (truncRat (16 * dyadicRat d) : Rat) / 16 := by
  have hencode := encodeA_eq (policy := .saturate) (hx ▸ clampedValue_of_mem hlow hhigh)
  have hcode : -2 ^ (11 + ext.toNat) ≤ truncRat (dyadicRat d * 16) := by
    have hnear := abs_lt.1 (abs_truncRat_sub_lt (dyadicRat d * 16))
    have hcodeRat : (-881 : Rat) < truncRat (dyadicRat d * 16) := by linarith
    have hcodeInt : -881 < truncRat (dyadicRat d * 16) := by exact_mod_cast hcodeRat
    cases ext
    · simp only [Bool.toNat_false]; omega
    · simp only [Bool.toNat_true]; omega
  obtain ⟨hmin, hmax⟩ := topCode_saturate_mem hcode
  have hwidth : 11 + ext.toNat + 1 = 12 + ext.toNat := by omega
  rw [hwidth] at hmin hmax
  refine ⟨_, hencode, ?_⟩
  rw [Temp.celsius, decodeA_sixteenths, decodeA_packA hmin hmax, topCode_saturate_truncRat hhigh, mul_comm (16 : Rat)]
  split_ifs <;> norm_num

theorem abs_truncRat_div_sub_lt (q : Rat) : |(truncRat (16 * q) : Rat) / 16 - q| < 1 / 16 := by
  have hnear := abs_lt.1 (abs_truncRat_sub_lt (16 * q))
  rw [abs_lt]
  constructor <;> linarith

/-! ## The requests (R221, R222, R227, R228) -/

section

variable {s : State}

theorem exec_tcDecodeA (hi lo : Byte) {ext : Byte} {e : Bool} (h : extOf ext = some e) :
    exec (.tcDecodeA hi lo ext) s = .next (s.respond (0 :: readingBytes (decodeA e hi lo))) := by
  simp only [exec, execTcDecodeA, h, finish_ok]

theorem exec_tcDecodeA_refused (hi lo : Byte) {ext : Byte} (h : extOf ext = none) :
    exec (.tcDecodeA hi lo ext) s = .next (s.respond [2]) := by
  simp only [exec, execTcDecodeA, h, finish_err, Err.code]

theorem exec_tcDecodeB (hi lo : Byte) {res : Byte} {r : Resolution} (h : resOf res = some r) :
    exec (.tcDecodeB hi lo res) s = .next (s.respond (0 :: readingBytes (decodeB r hi lo))) := by
  simp only [exec, execTcDecodeB, h, finish_ok]

theorem exec_tcDecodeB_refused (hi lo : Byte) {res : Byte} (h : resOf res = none) :
    exec (.tcDecodeB hi lo res) s = .next (s.respond [2]) := by
  simp only [exec, execTcDecodeB, h, finish_err, Err.code]

theorem exec_tcEncodeA {x : F64} {ext : Byte} {e : Bool} {p : Byte × Byte} (h : extOf ext = some e)
    (hp : encodeA s.params.encTop e x = some p) :
    exec (.tcEncodeA x ext) s = .next (s.respond [0, p.1, p.2]) := by
  simp only [exec, execTcEncodeA, h, hp, finish_ok, pairBytes]

/-- A bad mode and NaN are refused alike. -/
theorem exec_tcEncodeA_refused {x : F64} {ext : Byte} (h : extOf ext = none ∨ isNaN x) :
    exec (.tcEncodeA x ext) s = .next (s.respond [2]) := by
  cases hext : extOf ext with
  | none => simp only [exec, execTcEncodeA, hext, finish_err, Err.code]
  | some e =>
    have hnan : isNaN x := h.resolve_left (by simp [hext])
    simp only [exec, execTcEncodeA, hext, encodeA_nan hnan, finish_err, Err.code]

theorem exec_tcEncodeB {x : F64} {res : Byte} {r : Resolution} {p : Byte × Byte} (h : resOf res = some r)
    (hp : encodeB s.params.encTop r x = some p) :
    exec (.tcEncodeB x res) s = .next (s.respond [0, p.1, p.2]) := by
  simp only [exec, execTcEncodeB, h, hp, finish_ok, pairBytes]

/-- A bad resolution and NaN are refused alike. -/
theorem exec_tcEncodeB_refused {x : F64} {res : Byte} (h : resOf res = none ∨ isNaN x) :
    exec (.tcEncodeB x res) s = .next (s.respond [2]) := by
  cases hres : resOf res with
  | none => simp only [exec, execTcEncodeB, hres, finish_err, Err.code]
  | some r =>
    have hnan : isNaN x := h.resolve_left (by simp [hres])
    simp only [exec, execTcEncodeB, hres, encodeB_nan hnan, finish_err, Err.code]

/-! ## The sensor channels (R231, R232, R235) -/

theorem exec_scRead {ch : Byte} {i : ChannelId} (h : channelOf ch = some i) : exec (.scRead ch) s =
    finish ((readSensor i s).andThen fun r s1 => .ok (r.hi :: r.lo :: readingBytes r.reading) s1) := by
  simp only [exec, execScRead, h]

theorem exec_scRead_refused {ch : Byte} (h : channelOf ch = none) :
    exec (.scRead ch) s = .next (s.respond [2]) := by
  simp only [exec, execScRead, h, finish_err, Err.code]

theorem exec_scRead_ok {ch : Byte} {i : ChannelId} (h : channelOf ch = some i)
    (hok : s.nextDraw.outcome ≠ .busError) :
    exec (.scRead ch) s = .next ((s.sensed (s.channel i) s.nextDraw).respond
      (0 :: (sensedPair s.nextDraw).1 :: (sensedPair s.nextDraw).2 ::
        readingBytes (sensedReading (s.channel i) s.nextDraw))) := by
  obtain ⟨-, hr⟩ | ⟨hbus, -⟩ := readSensor_cases i s
  · rw [exec_scRead h, hr, andThen_ok, finish_ok]
  · exact absurd hbus hok

theorem exec_scRead_failed {ch : Byte} {i : ChannelId} (h : channelOf ch = some i)
    (hbus : s.nextDraw.outcome = .busError) :
    exec (.scRead ch) s = .next ((s.exchangeFailed (pollOps (s.channel i))).respond [1]) := by
  obtain ⟨hok, -⟩ | ⟨-, hr⟩ := readSensor_cases i s
  · exact absurd hbus hok
  · rw [exec_scRead h, hr, andThen_err, finish_err, Err.code]

theorem tempInRange_sensedReading (c : Channel) (d : Draw) : tempInRange (sensedReading c d).value := by
  unfold sensedReading
  cases c.variant with
  | a => exact tempInRange_decodeA _ _ _
  | b => exact tempInRange_decodeB _ _ _

theorem channelEncode_eq (policy : EncTop) (c : Channel) (x : F64) : channelEncode policy c x =
    if c.variant = .a then encodeA policy c.ext x else encodeB policy c.res x := by
  unfold channelEncode
  cases c.variant <;> rfl

theorem channelEncode_nan (policy : EncTop) (c : Channel) {x : F64} (h : isNaN x) :
    channelEncode policy c x = none := by
  rw [channelEncode_eq, encodeA_nan h, encodeB_nan h, ite_self]

theorem exists_channelEncode (policy : EncTop) (c : Channel) {x : F64} (h : ¬ isNaN x) :
    ∃ p, channelEncode policy c x = some p := by
  rw [channelEncode_eq]
  split_ifs
  · obtain ⟨xc, hxc⟩ := exists_clampedValue (-55) (highA c.ext) h
    exact ⟨_, encodeA_eq hxc⟩
  · obtain ⟨xc, hxc⟩ := exists_clampedValue (-55) 128 h
    exact ⟨_, encodeB_eq hxc⟩

theorem exec_scWriteThreshold {ch which : Byte} {x : F64} {i : ChannelId} {ptr : Byte} {p : Byte × Byte}
    (h : channelOf ch = some i) (hptr : thresholdPointer which = some ptr)
    (hp : channelEncode s.params.encTop (s.channel i) x = some p) : exec (.scWriteThreshold ch which x) s =
      finish ((txn [.writeBytes (s.channel i).addr [ptr, p.1, p.2]] s).andThen fun _ s1 => .ok (pairBytes p) s1) := by
  simp only [exec, execScWriteThreshold, h, hptr, hp]

/-- A bad channel, a bad pointer and NaN are refused alike. -/
theorem exec_scWriteThreshold_refused {ch which : Byte} {x : F64}
    (h : channelOf ch = none ∨ thresholdPointer which = none ∨ isNaN x) :
    exec (.scWriteThreshold ch which x) s = .next (s.respond [2]) := by
  cases hch : channelOf ch with
  | none => simp only [exec, execScWriteThreshold, hch, finish_err, Err.code]
  | some i =>
    cases hptr : thresholdPointer which with
    | none => simp only [exec, execScWriteThreshold, hch, hptr, finish_err, Err.code]
    | some ptr =>
      have hnan : isNaN x := (h.resolve_left (by simp [hch])).resolve_left (by simp [hptr])
      simp only [exec, execScWriteThreshold, hch, hptr, channelEncode_nan _ _ hnan, finish_err, Err.code]

end

end Sys2Proof.Machine

/-! ## The eight statements -/

section

open Sys2Proof Sys2Proof.Machine

/-- Settles O22: the model's signed code is the rule's, and its sixteenth is exact because the code is in range. -/
theorem tcDecodeAResult : Obligations.TcDecodeAResult := by
  unfold Obligations.TcDecodeAResult
  intro hi lo ext s
  refine ⟨fun hbad => exec_tcDecodeA_refused hi lo (extOf_eq_none hbad), fun hgood => ?_⟩
  obtain ⟨e, he, hext⟩ := exists_extOf hgood
  have hraw := signedCode_msb (12 + ext.toNat) hi
    ((hi.toNat <<< (4 + ext.toNat)) ||| (lo.toNat >>> (4 - ext.toNat)))
  simp only [← hraw]
  rw [exec_tcDecodeA hi lo he, hext]
  exact ⟨_, isF64Of_of_tempInRange (tempInRange_decodeA e hi lo), rfl⟩

/-- Settles O23: the operands in range make a clamped value, whose code the request packs. -/
theorem tcEncodeAResult : Obligations.TcEncodeAResult := by
  unfold Obligations.TcEncodeAResult
  intro x ext s
  refine ⟨fun hbad => exec_tcEncodeA_refused (hbad.imp_left extOf_eq_none), fun xc hgood hxc => ?_,
    fun _ hx => exists_clampedValue _ _ hx⟩
  obtain ⟨e, he, hext⟩ := exists_extOf hgood
  have hhigh : (if ext.toNat = 1 then 150 else 128) = highA e := by rw [hext]; cases e <;> rfl
  rw [hhigh] at hxc
  simp only [hext]
  rw [exec_tcEncodeA he (encodeA_eq hxc), packA_topCode]

/-- Settles O24: the model's signed code is the rule's, and its value is exact because it is in range. -/
theorem tcDecodeBResult : Obligations.TcDecodeBResult := by
  unfold Obligations.TcDecodeBResult
  intro hi lo res s
  refine ⟨fun hbad => exec_tcDecodeB_refused hi lo (resOf_eq_none hbad), fun hlow hhigh => ?_⟩
  obtain ⟨r, hr, hres⟩ := exists_resOf hlow hhigh
  have hraw := signedCode_msb res.toNat hi (((hi.toNat <<< 8) ||| lo.toNat) >>> (16 - res.toNat))
  have hexact := isF64Of_of_tempInRange (tempInRange_decodeB r hi lo)
  rw [decodeB_celsius] at hexact
  simp only [← hraw]
  rw [exec_tcDecodeB hi lo hr, hres]
  exact ⟨_, hexact, rfl⟩

/-- Settles O25: the operands in range make a clamped value, whose code the request packs. -/
theorem tcEncodeBResult : Obligations.TcEncodeBResult := by
  unfold Obligations.TcEncodeBResult
  intro x res s
  refine ⟨fun hbad => exec_tcEncodeB_refused ?_, fun xc hlow hhigh hxc => ?_, exists_clampedValue _ _⟩
  · rw [← or_assoc] at hbad
    exact hbad.imp_left resOf_eq_none
  obtain ⟨r, hr, hres⟩ := exists_resOf hlow hhigh
  simp only [hres]
  rw [exec_tcEncodeB hr (encodeB_eq hxc), packB_topCode]

/-- Settles O26: the code of a temperature in range survives the two bytes, and saturation moves 128 in normal mode
by exactly one step. -/
theorem temperatureRoundTripA : Obligations.TemperatureRoundTripA := by
  unfold Obligations.TemperatureRoundTripA
  intro x d ext s hpolicy hx hlow hhigh
  obtain ⟨p, hp, hvalue⟩ := decodeA_encodeA hx hlow hhigh
  rw [← hpolicy] at hp
  refine ⟨p.1, p.2, _, _, _, exec_tcEncodeA (extOf_boolByte ext) hp, exec_tcDecodeA p.1 p.2 (extOf_boolByte ext),
    isF64Of_of_tempInRange (tempInRange_decodeA ext p.1 p.2), hvalue, ?_⟩
  rw [hvalue]
  split_ifs with htop
  · refine ⟨?_, fun hnot => absurd htop hnot⟩
    rw [htop.2]
    norm_num [abs_of_neg]
  · have hnear := abs_truncRat_div_sub_lt (dyadicRat d)
    exact ⟨hnear.le, fun _ => hnear⟩

/-- Settles O29: at 12 bits both decodes read the same bits and both encodes pack the same code; the extended mode
differs at 01 00, and a lower resolution drops the last bit of 00 10. -/
theorem variantsAgreeAtTwelveBits : Obligations.VariantsAgreeAtTwelveBits := by
  unfold Obligations.VariantsAgreeAtTwelveBits
  refine ⟨decodeB_r12_eq_decodeA, encodeB_r12_eq_encodeA, ⟨0x01, 0x00, by decide⟩,
    fun r hr => ⟨0x00, 0x10, ?_⟩⟩
  cases r with
  | r9 => decide
  | r10 => decide
  | r11 => decide
  | r12 => exact absurd rfl hr

/-- Settles O33: the poll is one transaction, and the reading is in range, so its binary64 is exact. -/
theorem scReadResult : Obligations.ScReadResult := by
  unfold Obligations.ScReadResult
  intro ch s
  refine ⟨fun hbad => exec_scRead_refused (channelOf_eq_none hbad), fun c hc => ?_⟩
  obtain ⟨i, hi, rfl⟩ := exists_channelOf hc
  exact ⟨exec_scRead_failed hi, fun hok =>
    ⟨_, isF64Of_of_tempInRange (tempInRange_sensedReading _ _), exec_scRead_ok hi hok⟩⟩

/-- Settles O34: a temperature that is a number encodes, and the two bytes go out in one transaction. -/
theorem scWriteThresholdResult : Obligations.ScWriteThresholdResult := by
  unfold Obligations.ScWriteThresholdResult
  intro ch which x s
  refine ⟨fun hbad => exec_scWriteThreshold_refused
    (hbad.imp channelOf_eq_none (Or.imp_left thresholdPointer_eq_none)), fun c ptr hc hptr hx => ?_⟩
  obtain ⟨i, hi, rfl⟩ := exists_channelOf hc
  obtain ⟨p, hp⟩ := exists_channelEncode s.params.encTop (s.channel i) hx
  rw [exec_scWriteThreshold hi (thresholdPointer_eq_some hptr) hp]
  refine ⟨p, hp.symm.trans (channelEncode_eq _ _ _), fun hbus => ?_, fun hok => ?_⟩
  · rw [txn_failed hbus]
    rfl
  · obtain ⟨data, -, ht⟩ | ⟨hbus, -⟩ := txn_cases [.writeBytes (s.channel i).addr [ptr, p.1, p.2]] s
    · rw [ht]
      rfl
    · exact absurd hbus hok

end

/-! # The scheduler (43_scheduler.md R261 to R281)

What start-up, a wait, the display timer and REQ's three requests end in, and the seven statements on them (O18, O19,
O21, O51 to O54). -/

namespace Sys2Proof.Machine

/-! ## REQ's requests and the interrupt line (R276 to R278, R281) -/

theorem exec_schedWake (s : State) : exec .schedWake s = .next (s.setWake.respond [0]) := rfl

theorem exec_schedStop (s : State) : exec .schedStop s = .next (s.setStop.respond [0]) := rfl

theorem exec_schedSnapshot (s : State) :
    exec .schedSnapshot s = .next (s.respond (0 :: snapshotBytes s.pub)) := rfl

/-- The presence mask as a number: its three bits are separate, so their union is their sum. -/
theorem snapshotBytes_eq (p : Snapshot) : snapshotBytes p =
    BitVec.ofNat 8 (p.temp0.isSome.toNat + 2 * p.temp1.isSome.toNat + 4 * p.ts.isSome.toNat) ::
      (be64 ((p.temp0.map f64OfTemp).getD 0) ++ be64 ((p.temp1.map f64OfTemp).getD 0) ++
        be64 ((p.ts.map u64OfTime).getD 0)) := by
  have hmask : ∀ a b c : Bool, ((if a then 1 else 0) ||| (if b then 2 else 0) ||| (if c then 4 else 0) : Byte) =
      BitVec.ofNat 8 (a.toNat + 2 * b.toNat + 4 * c.toNat) := by decide
  rw [snapshotBytes, hmask]

theorem snapshotTemp_cases {o : Option Temp} (h : ∀ v, o = some v → tempInRange v) :
    (o = none ∧ o.isSome.toNat = 0 ∧ (o.map f64OfTemp).getD 0 = 0) ∨
    ∃ v, o = some v ∧ o.isSome.toNat = 1 ∧ isF64Of ((o.map f64OfTemp).getD 0) v.celsius := by
  cases o with
  | none => exact .inl ⟨rfl, rfl, rfl⟩
  | some v => exact .inr ⟨v, rfl, rfl, isF64Of_of_tempInRange (h v rfl)⟩

theorem snapshotTime_cases (o : Option Nat) :
    (o = none ∧ o.isSome.toNat = 0 ∧ (o.map u64OfTime).getD 0 = 0) ∨
    ∃ t, o = some t ∧ o.isSome.toNat = 1 ∧ (t < 2 ^ 64 → (o.map u64OfTime).getD 0 = BitVec.ofNat 64 t) := by
  cases o with
  | none => exact .inl ⟨rfl, rfl, rfl⟩
  | some t => exact .inr ⟨t, rfl, rfl, fun h => if_pos h⟩

/-! ## The grid of a timer (R266) -/

/-- The first grid point after `now` lies within one period of it, a whole number of periods from the deadline. -/
theorem advanceDeadline_bounds {dl period now : Nat} (hdue : dl ≤ now) (hperiod : 0 < period) :
    now < advanceDeadline dl period now ∧ advanceDeadline dl period now ≤ now + period ∧
      period ∣ advanceDeadline dl period now - dl := by
  have hsplit := Nat.div_add_mod (now - dl) period
  have hrest := Nat.mod_lt (now - dl) hperiod
  unfold advanceDeadline
  refine ⟨?_, ?_, ?_⟩
  · rw [Nat.mul_add_one]
    omega
  · rw [Nat.mul_add_one]
    omega
  · rw [Nat.add_sub_cancel_left]
    exact Nat.dvd_mul_right _ _

/-! ## One evaluation of the wait condition, source by source (R263 to R265) -/

section

variable {s : State}

theorem waitOutcome_stop (hstop : s.stop = true) : waitOutcome s = some (5, s) := by
  rw [waitOutcome, if_pos hstop]

variable (hstop : s.stop = false)

include hstop

theorem waitOutcome_logTick (hlog : s.logDl ≤ s.now) :
    waitOutcome s = some (0, { s with logDl := gridAfter s.logDl s.params.logPeriod s.now }) := by
  rw [waitOutcome, if_neg (Bool.eq_false_iff.1 hstop), if_pos hlog]

variable (hlog : s.now < s.logDl)

include hlog

theorem waitOutcome_displayTick (hdisp : s.dispDl ≤ s.now) :
    waitOutcome s = some (1, { s with dispDl := gridAfter s.dispDl s.params.displayPeriod s.now }) := by
  rw [waitOutcome, if_neg (Bool.eq_false_iff.1 hstop), if_neg hlog.not_ge, if_pos hdisp]

variable (hdisp : s.now < s.dispDl)

include hdisp

theorem waitOutcome_interrupt (hirq : s.irqPend = true) :
    waitOutcome s = some (2, { s with irqPend := false }) := by
  rw [waitOutcome, if_neg (Bool.eq_false_iff.1 hstop), if_neg hlog.not_ge, if_neg hdisp.not_ge, if_pos hirq]

variable (hirq : s.irqPend = false)

include hirq

theorem waitOutcome_wake (hwake : s.wake = true) : waitOutcome s = some (3, { s with wake := false }) := by
  rw [waitOutcome, if_neg (Bool.eq_false_iff.1 hstop), if_neg hlog.not_ge, if_neg hdisp.not_ge,
    if_neg (Bool.eq_false_iff.1 hirq), if_pos hwake]

theorem waitOutcome_timeout (hwake : s.wake = false) (htmo : s.waitStart + s.params.waitTimeout ≤ s.now) :
    waitOutcome s = some (4, s) := by
  rw [waitOutcome, if_neg (Bool.eq_false_iff.1 hstop), if_neg hlog.not_ge, if_neg hdisp.not_ge,
    if_neg (Bool.eq_false_iff.1 hirq), if_neg (Bool.eq_false_iff.1 hwake), if_pos htmo]

end

/-! ## SCHED.WAIT (R263) and SCHED.RESTART_DISPLAY (R275) -/

/-- A wait that ends makes its request go on with the event it consumed. -/
theorem tryWait_of_waitOutcome {w : Waiter} {s b : State} {code : Byte} (h : waitOutcome s = some (code, b)) :
    ∃ ev : Event, ev.code = code ∧ tryWait w s = afterWaitOf w ev b := by
  obtain ⟨ev, hev, hcode⟩ := evalWait_some h
  exact ⟨ev, hcode, by rw [tryWait, hev]⟩

/-- For SCHED.WAIT itself, going on is answering. -/
theorem tryWait_wait_of_waitOutcome {s b : State} {code : Byte} (h : waitOutcome s = some (code, b)) :
    tryWait .wait s = b.answered code := by
  obtain ⟨ev, rfl, hgo⟩ := tryWait_of_waitOutcome (w := .wait) h
  exact hgo

theorem exec_schedWait_of_waitOutcome {s b : State} {code : Byte} (hphase : s.phase = .running)
    (h : waitOutcome { s with waitStart := s.now } = some (code, b)) :
    exec .schedWait s = .next (b.answered code) := by
  simp only [exec, execSchedWait, if_pos hphase, startWait, tryWait_wait_of_waitOutcome h]

theorem exec_schedWait_refused {s : State} (hphase : s.phase ≠ .running) :
    exec .schedWait s = .next (s.respond [2]) := by
  simp only [exec, execSchedWait, if_neg hphase, reply_err, Err.code]

/-- A blocked LOOP request goes on in the next step that REQ leaves it, after the environment acted. -/
theorem step_blockedIn {w : Waiter} {s : State} (h : s.blockedIn w) : step s = .next (tryWait w s.waitResumed) := by
  obtain ⟨hreq, hloop⟩ := h
  simp only [step, fetch, hreq, fetchLoop, hloop, resumeWait, State.waitResumed]

theorem exec_schedRestartDisplay {s : State} (hphase : s.phase = .running) :
    exec .schedRestartDisplay s = .next (({ s with dispDl := s.now } : State).respond [0]) := by
  simp only [exec, execSchedRestartDisplay, if_pos hphase, finish_ok, restartDisplay]

theorem exec_schedRestartDisplay_refused {s : State} (hphase : s.phase ≠ .running) :
    exec .schedRestartDisplay s = .next (s.respond [2]) := by
  simp only [exec, execSchedRestartDisplay, if_neg hphase, finish_err, Err.code]

/-! ## SCHED.START (R261) -/

/-- A response tells the state before it. -/
theorem respond_inj {s t : State} {a b : List Byte} (h : s.respond a = t.respond b) : s = t ∧ a = b := by
  have hresponses : s.responses ++ [(s.agent, a)] = t.responses ++ [(t.agent, b)] := congrArg State.responses h
  obtain ⟨hbefore, hlast⟩ := List.append_inj' hresponses rfl
  have hdropped : ∀ (u : State) (c : List Byte), u = { u.respond c with responses := u.responses } := fun _ _ => rfl
  refine ⟨?_, congrArg Prod.snd (List.singleton_inj.1 hlast)⟩
  rw [hdropped s a, hdropped t b, h, hbefore]

/-- A unit of start-up that may be absent: its failure is noted, and start-up goes on. -/
def triedUnit (r : Res Unit) (o : Origin) : State :=
  match r with
  | .ok _ s => s
  | .err e s => s.emitDiag e o

theorem startUnits_eq (s : State) : startUnits s =
    if (triedUnit (xmInit s) .expander).xmPresent = true then
      triedUnit (lcdInit (triedUnit (xmInit s) .expander)) .display
    else triedUnit (xmInit s) .expander := rfl

/-- What the request answers on its own tells the state that start-up goes on from. -/
theorem triedUnit_eq {i : Instr} {o : Origin} {s t : State} {r : Res Unit} (hexec : exec i s = finish r.noResult)
    (h : triedAtStart i o s t) : triedUnit r o = t := by
  unfold triedAtStart at h
  rw [hexec] at h
  cases r with
  | ok _ s1 =>
    rw [noResult_ok, finish_ok] at h
    obtain hok | ⟨u, hfailed, -⟩ := h
    · exact (respond_inj (Host.Outcome.next.inj hok)).1
    · cases (respond_inj (Host.Outcome.next.inj hfailed)).2
  | err e s1 =>
    rw [noResult_err, finish_err] at h
    obtain hok | ⟨u, hfailed, rfl⟩ := h
    · obtain ⟨-, hcode⟩ := respond_inj (Host.Outcome.next.inj hok)
      cases e <;> cases hcode
    · obtain ⟨rfl, hcode⟩ := respond_inj (Host.Outcome.next.inj hfailed)
      cases e with
      | bus => cases hcode
      | configuration => cases hcode
      | hardwareAbsent => rfl

theorem startUnits_of_tried {s e d : State} (hexpander : triedAtStart .xmInit .expander s e)
    (hdisplay : if e.xmPresent = true then triedAtStart .lcdInit .display e d else d = e) : startUnits s = d := by
  rw [startUnits_eq, triedUnit_eq (exec_xmInit s) hexpander]
  split_ifs at hdisplay ⊢ with hpresent
  · exact triedUnit_eq (exec_lcdInit e) hdisplay
  · exact hdisplay.symm

theorem probeSensor_ok {s : State} (i : ChannelId) (o : Origin) (h : s.nextDraw.outcome ≠ .busError) :
    probeSensor i o s =
      .ok (sensedReading (s.channel i) s.nextDraw).value (s.sensed (s.channel i) s.nextDraw) := by
  obtain ⟨-, hr⟩ | ⟨hbus, -⟩ := readSensor_cases i s
  · rw [probeSensor, hr]
  · exact absurd hbus h

theorem probeSensor_failed {s : State} (i : ChannelId) (o : Origin) (h : s.nextDraw.outcome = .busError) :
    probeSensor i o s = .err .hardwareAbsent (s.probeFailed (s.channel i) o) := by
  obtain ⟨hok, -⟩ | ⟨-, hr⟩ := readSensor_cases i s
  · exact absurd h hok
  · rw [probeSensor, hr]
    rfl

theorem exec_schedStart_refused {s : State} (hphase : s.phase ≠ .reset) :
    exec .schedStart s = .next (s.respond [2]) := by
  simp only [exec, execSchedStart, schedStart, if_neg hphase, noResult_err, finish_err, Err.code]

/-- Start-up in phase Reset: the units, the two probes, then publish and arm. -/
theorem exec_schedStart {s : State} (hphase : s.phase = .reset) : exec .schedStart s =
    finish ((probeSensor .inside .sensor0 (startUnits s)).andThen fun v0 s1 =>
      (probeSensor .outside .sensor1 { s1 with temp0 := some v0 }).andThen fun v1 s2 =>
        .ok () (State.armed { s2 with temp1 := some v1 })).noResult := by
  simp only [exec, execSchedStart, schedStart, if_pos hphase]
  rfl

end Sys2Proof.Machine

/-! ## The seven statements -/

section

open Sys2Proof Sys2Proof.Machine

/-- Settles O18: each request is its one update of the state. -/
theorem wakeAndStopResults : Obligations.WakeAndStopResults := by
  unfold Obligations.WakeAndStopResults
  exact fun s => ⟨exec_schedWake s, exec_schedStop s⟩

/-- Settles O21: the level is asserted when the line is low, and an edge needs the level before it not to be. -/
theorem interruptEdgeDetector : Obligations.InterruptEdgeDetector := by
  unfold Obligations.InterruptEdgeDetector
  intro s high
  have hedge : (s.irqPend || (lineAsserted high && !s.intPrev)) =
      if high = false ∧ s.intPrev = false then true else s.irqPend := by
    cases high <;> cases s.intPrev <;> simp [lineAsserted]
  have hlevel : lineAsserted high = if high = false then true else false := by cases high <;> rfl
  rw [← hedge, ← hlevel]
  rfl

/-- Settles O19: each of the three values is absent, as 0, or present, a temperature exactly because it is in range. -/
theorem snapshotResult : Obligations.SnapshotResult := by
  unfold Obligations.SnapshotResult
  intro s h0 h1
  refine ⟨_, _, _, _, _, _, _, ?_, rfl, snapshotTemp_cases h0, snapshotTemp_cases h1, snapshotTime_cases _⟩
  rw [exec_schedSnapshot, snapshotBytes_eq]

/-- Settles O54: the drain writes one deadline, whose place follows from the division that finds it. -/
theorem timerAdvance : Obligations.TimerAdvance := by
  unfold Obligations.TimerAdvance
  intro s
  constructor
  · intro hdue hperiod
    obtain ⟨hafter, hwithin, hgrid⟩ := advanceDeadline_bounds hdue hperiod
    exact ⟨rfl, hafter, hwithin, hgrid, rfl⟩
  · intro hdue hperiod
    obtain ⟨hafter, hwithin, hgrid⟩ := advanceDeadline_bounds hdue hperiod
    exact ⟨rfl, hafter, hwithin, hgrid, rfl⟩

/-- Settles O53: a wait answers what its evaluation consumes, at once or in the step that goes on with it. -/
theorem waitResult : Obligations.WaitResult := by
  unfold Obligations.WaitResult
  intro s
  refine ⟨exec_schedWait_refused, fun hphase => ⟨?stop, ?logTick, ?displayTick, ?interrupt, ?wake⟩, ?blocked⟩
  case stop => exact fun hstop => exec_schedWait_of_waitOutcome hphase (waitOutcome_stop hstop)
  case logTick =>
    exact fun hstop hlog => exec_schedWait_of_waitOutcome hphase (waitOutcome_logTick hstop hlog)
  case displayTick =>
    exact fun hstop hlog hdisp =>
      exec_schedWait_of_waitOutcome hphase (waitOutcome_displayTick hstop hlog hdisp)
  case interrupt =>
    exact fun hstop hlog hdisp hirq =>
      exec_schedWait_of_waitOutcome hphase (waitOutcome_interrupt hstop hlog hdisp hirq)
  case wake =>
    exact fun hstop hlog hdisp hirq hwake =>
      exec_schedWait_of_waitOutcome hphase (waitOutcome_wake hstop hlog hdisp hirq hwake)
  case blocked =>
    intro hblocked w hstop hlog hdisp hirq hwake htmo
    rw [step_blockedIn hblocked,
      tryWait_wait_of_waitOutcome (waitOutcome_timeout hstop hlog hdisp hirq hwake htmo)]

/-- Settles O52: a deadline of `NOW` is due, so the next wait finds the display timer ready. -/
theorem restartDisplayResult : Obligations.RestartDisplayResult := by
  unfold Obligations.RestartDisplayResult
  intro s
  refine ⟨exec_schedRestartDisplay_refused, fun hphase => ⟨exec_schedRestartDisplay hphase, ?_⟩⟩
  intro hstop hlog
  exact exec_schedWait_of_waitOutcome hphase (waitOutcome_displayTick hstop hlog le_rfl)

/-- Settles O51: start-up goes on from what the two units leave, and each probe is the read of its sensor. -/
theorem startResult : Obligations.StartResult := by
  unfold Obligations.StartResult
  refine ⟨fun s => exec_schedStart_refused, fun s e d hphase hexpander hdisplay => ?_⟩
  have hstart := exec_schedStart hphase
  rw [startUnits_of_tried hexpander hdisplay] at hstart
  refine ⟨fun hbus => ?_, fun hok => ?_⟩
  · rw [hstart, probeSensor_failed _ _ hbus]
    rfl
  · intro p
    have hsecond : exec .schedStart s = finish ((probeSensor .outside .sensor1 p).andThen fun v1 s2 =>
        .ok () (State.armed { s2 with temp1 := some v1 })).noResult := by
      rw [hstart, probeSensor_ok _ _ hok]
      rfl
    refine ⟨fun hbus => ?_, fun hok => ?_⟩
    · rw [hsecond, probeSensor_failed _ _ hbus]
      rfl
    · rw [hsecond, probeSensor_ok _ _ hok]
      rfl

end

/-! # The request encoding, as a bijection, and the fetch (30_encoding.md R90 to R93)

The decoder reads encodings and nothing else, and the step runs what it reads: O1, O2, O5 and O6. -/

namespace Sys2Proof.Laws

open Sys2Proof.Machine

/-! ## What the decoder accepts -/

/-- The value of eight bytes has them as its bytes. -/
theorem be64_ofBe64 (a b c d e f g h : Byte) : be64 (ofBe64 a b c d e f g h) = [a, b, c, d, e, f, g, h] := by
  simp only [be64, ofBe64, List.cons.injEq, and_true]
  refine ⟨?_, ?_, ?_, ?_, ?_, ?_, ?_, ?_⟩
  all_goals
    ext i hi
    simp (disch := omega) only [BitVec.getElem_extractLsb', BitVec.getLsbD_append, if_neg, if_pos]
    rw [← BitVec.getLsbD_eq_getElem]
    congr 1
    omega

/-- After the bytes `before`, `f` accepts nothing but the rest of an encoding, and hands back what follows it. -/
def AcceptsEncodings (before : List Byte) (f : List Byte → Decoded) : Prop :=
  ∀ bs i rest, f bs = .ok (i, rest) → i.wf = true ∧ before ++ bs = encode i ++ rest

theorem acceptsEncodings_none {i : Instr} (hwf : i.wf = true) :
    AcceptsEncodings (encode i) (fun bs => .ok (i, bs)) := by
  intro bs j rest h
  cases h
  exact ⟨hwf, rfl⟩

theorem acceptsEncodings_take1 {before : List Byte} {op : Byte} {k : Byte → Instr}
    (hk : ∀ a, (k a).wf = true ∧ encode (k a) = before ++ [a]) : AcceptsEncodings before (take1 op k)
  | [], _, _, h => nomatch h
  | a :: bs, i, rest, h => by
    cases h
    exact ⟨(hk a).1, by simp [(hk a).2]⟩

theorem acceptsEncodings_take2 {before : List Byte} {op : Byte} {k : Byte → Byte → Instr}
    (hk : ∀ a b, (k a b).wf = true ∧ encode (k a b) = before ++ [a, b]) : AcceptsEncodings before (take2 op k)
  | [], _, _, h => nomatch h
  | [_], _, _, h => nomatch h
  | a :: b :: bs, i, rest, h => by
    cases h
    exact ⟨(hk a b).1, by simp [(hk a b).2]⟩

theorem acceptsEncodings_take3 {before : List Byte} {op : Byte} {k : Byte → Byte → Byte → Instr}
    (hk : ∀ a b c, (k a b c).wf = true ∧ encode (k a b c) = before ++ [a, b, c]) :
    AcceptsEncodings before (take3 op k)
  | [], _, _, h => nomatch h
  | [_], _, _, h => nomatch h
  | [_, _], _, _, h => nomatch h
  | a :: b :: c :: bs, i, rest, h => by
    cases h
    exact ⟨(hk a b c).1, by simp [(hk a b c).2]⟩

theorem acceptsEncodings_takeF64 {before : List Byte} {op : Byte} {k : F64 → List Byte → Decoded}
    (hk : ∀ x, AcceptsEncodings (before ++ be64 x) (k x)) : AcceptsEncodings before (takeF64 op k) := by
  intro bs i rest h
  match bs with
  | [] | [_] | [_, _] | [_, _, _] | [_, _, _, _] | [_, _, _, _, _] | [_, _, _, _, _, _] | [_, _, _, _, _, _, _] =>
    cases h
  | a :: b :: c :: d :: e :: f :: g :: l :: bs =>
    obtain ⟨hwf, hbytes⟩ := hk _ bs i rest h
    rw [be64_ofBe64] at hbytes
    exact ⟨hwf, by simpa using hbytes⟩

theorem acceptsEncodings_takeBytes {before : List Byte} {op : Byte} {k : List Byte → Instr}
    (hk : ∀ text, (k text).wf = fitsLengthByte text ∧ encode (k text) = before ++ encodeBytes text) :
    AcceptsEncodings before (takeBytes op k) := by
  intro bs i rest h
  cases bs with
  | nil => cases h
  | cons n r =>
    cases hsplit : splitBytes n.toNat r with
    | none => simp only [takeBytes, hsplit] at h; cases h
    | some p =>
      obtain ⟨text, rest'⟩ := p
      simp only [takeBytes, hsplit] at h
      cases h
      obtain ⟨hlength, rfl⟩ := splitBytes_eq_some hsplit
      obtain ⟨hwf, hencode⟩ := hk text
      refine ⟨?_, ?_⟩
      · rw [hwf, fitsLengthByte, hlength, decide_eq_true_eq]
        exact n.isLt
      · rw [hencode, encodeBytes, hlength, BitVec.ofNat_toNat, BitVec.setWidth_eq]
        simp

/-- The row of every request accepts encodings only. -/
theorem decodeBody_acceptsEncodings (i : Instr) :
    AcceptsEncodings [(tableRow i).1] (decodeBody (tableRow i).1) := by
  cases i with
  | tcDecodeA | tcDecodeB => exact acceptsEncodings_take3 fun _ _ _ => ⟨rfl, rfl⟩
  | tcEncodeA | tcEncodeB =>
    exact acceptsEncodings_takeF64 fun _ => acceptsEncodings_take1 fun _ => ⟨rfl, rfl⟩
  | scWriteThreshold =>
    intro bs i rest h
    match bs with
    | [] | [_] => cases h
    | ch :: which :: bs =>
      have hrow : AcceptsEncodings [0x05, ch, which]
          (takeF64 0x05 fun x r => .ok (.scWriteThreshold ch which x, r)) :=
        acceptsEncodings_takeF64 fun x => acceptsEncodings_none (i := .scWriteThreshold ch which x) rfl
      exact hrow bs i rest h
  | lcdMessage => exact acceptsEncodings_takeBytes fun _ => ⟨rfl, rfl⟩
  | lcdCreateChar =>
    intro bs i rest h
    match bs with
    | [] => cases h
    | slot :: bs =>
      have hrow : AcceptsEncodings [0x51, slot] (takeBytes 0x51 (.lcdCreateChar slot)) :=
        acceptsEncodings_takeBytes fun _ => ⟨rfl, rfl⟩
      exact hrow bs i rest h
  | xmWrite | xmTestButton | lcdSend | lcdSetPos => exact acceptsEncodings_take2 fun _ _ => ⟨rfl, rfl⟩
  | scRead | xmRead | xmWriteB | xmSetRed | xmSetGreen | xmSetBacklight | lcdCommand | lcdData | lcdSetDisplay
  | lcdSetCursor | lcdSetBlink | lcdSetAutoscroll => exact acceptsEncodings_take1 fun _ => ⟨rfl, rfl⟩
  | xmInit | xmAckInt | xmReadButtons | lcdInit | lcdReset | lcdClear | lcdHome | lcdLeftToRight | lcdRightToLeft
  | lcdScrollLeft | lcdScrollRight | schedStart | schedWait | schedIterate | schedRestartDisplay | schedWake
  | schedStop | schedSnapshot | schedRun => exact acceptsEncodings_none rfl

/-- A reserved op code is refused, so an accepted request begins with the op code of a row. -/
theorem decode_eq_ok {bytes rest : List Byte} {i : Instr} (h : decode bytes = .ok (i, rest)) :
    i.wf = true ∧ bytes = encode i ++ rest := by
  cases bytes with
  | nil => cases h
  | cons op bs =>
    obtain hreserved | ⟨row, -, rfl⟩ := reserved_or_opCode op
    · rw [decode_reserved hreserved] at h
      cases h
    · exact decodeBody_acceptsEncodings row bs i rest h

/-! ## The fetch (43_scheduler.md R260) -/

theorem step_of_host_request {s : State} {i : Instr} {rest : List Byte} (hreq : s.reqPort = [])
    (hidle : s.loop = .idle) (hgap : s.gap = false) (hdecode : decode s.hostPort = .ok (i, rest)) :
    step s = exec i { s with hostPort := rest, agent := .loop, gap := true } := by
  have hhost : s.hostPort ≠ [] := by
    intro hempty
    rw [hempty] at hdecode
    cases hdecode
  have hfetch : fetch s = .run i { s with hostPort := rest, agent := .loop, gap := true } := by
    simp [fetch, hreq, fetchLoop, hidle, hgap, hhost, fetchHost, hdecode]
  simp only [step, hfetch]

theorem step_of_req_request {s : State} {i : Instr} {rest : List Byte} (hi : i.reqMayIssue = true)
    (hdecode : decode s.reqPort = .ok (i, rest)) : step s = exec i { s with reqPort := rest, agent := .req } := by
  have hfetch : fetch s = .run i { s with reqPort := rest, agent := .req } := by
    cases hport : s.reqPort with
    | nil => rw [hport] at hdecode; cases hdecode
    | cons op bs =>
      have hreq : fetch s = fetchReq s := by simp only [fetch, hport]
      simp only [hreq, fetchReq, hdecode, hi, if_true]
  simp only [step, hfetch]

end Sys2Proof.Laws

/-! ## The four statements -/

section

open Sys2Proof Sys2Proof.Machine Sys2Proof.Laws

/-- Settles O1: the decoder's law of every row. -/
theorem decodeEncodeRoundTrip : Obligations.DecodeEncodeRoundTrip := by
  unfold Obligations.DecodeEncodeRoundTrip
  exact decode_encode_append

/-- Settles O2: the row of the first byte accepts encodings only. -/
theorem decodeReadsOnlyEncodings : Obligations.DecodeReadsOnlyEncodings := by
  unfold Obligations.DecodeReadsOnlyEncodings
  exact fun _ _ _ => decode_eq_ok

/-- Settles O5: the bytes on the left are what the encoder writes, so the round trip reads them back. -/
theorem writtenRequestsDecode : Obligations.WrittenRequestsDecode := by
  unfold Obligations.WrittenRequestsDecode
  exact ⟨decode_encode_append (.tcDecodeA 0x19 0x00 0x00) [] rfl,
    decode_encode_append (.tcEncodeA 0x4062C00000000000 0x01) [] rfl,
    decode_encode_append (.scWriteThreshold 0x00 0x01 0x403E000000000000) [] rfl,
    decode_encode_append (.xmSetRed 0x01) [] rfl,
    decode_encode_append (.lcdSetPos 0x03 0xFF) [] rfl,
    decode_encode_append (.lcdMessage [0x48, 0x69, 0x0A, 0x58]) [0x24, 0x01] rfl,
    decode_encode_append (.lcdCreateChar 0x01 [0x1F]) [] rfl,
    decode_encode_append .schedIterate [] rfl⟩

/-- Settles O6: each port's request is fetched under the conditions of the statement. -/
theorem stepRunsTheDecodedRequest : Obligations.StepRunsTheDecodedRequest := by
  unfold Obligations.StepRunsTheDecodedRequest
  exact ⟨fun s i rest => step_of_host_request,
    fun s i rest hi hdecode => step_of_req_request ((reqMayIssue_iff i).2 hi) hdecode⟩

end

/-! # What a request can do

Every request is a sequence of elementary writes, of elements that the request's row of the "writers" column
(10_state.md R21) names. `Move` lists the elementary writes, `writesOf` the rows, and `exec_ended` says once how every
request ends. The laws that every step keeps are then laws of the single moves. -/

namespace Sys2Proof.Machine

/-! ## The elementary writes -/

/-- What an elementary write is a write of. A draw of the environment counts as one, and the two flags of REQ are told
apart by the direction in which they change. -/
inductive Element where
  | env
  | trace
  | register (reg : Byte)
  | xmPresent
  | lcdPresent
  | entry
  | dctrl
  | fmt
  | err
  | log
  | diag
  | readings
  | phase
  | logDl
  | dispDl
  | waitStart
  | loop
  | drainedIrq
  | drainedWake
  | setWake
  | setStop
deriving DecidableEq

/-- One elementary write of the machine, or one use of the environment's next draw. -/
inductive Move : Element → State → State → Prop where
  /-- time passes and the environment and REQ act, as the next draw says -/
  | env (ms : Nat) (s : State) : Move .env s ((s.dropDraw.surround ms s.nextDraw.acts).envFrom s)
  /-- the record of a transaction other than a successful register write -/
  | record (ops : List BusOp) (outcome : Option (List (List Byte))) (s : State)
      (h : ∀ a reg w, ops = [.writeBytes a [reg, w]] → outcome = none) : Move .trace s (s.emitTrace ops outcome)
  /-- the record of a successful register write, and the copies it updates -/
  | register (reg v : Byte) (s : State) : Move (.register reg) s (s.regWritten (reg, v))
  | xmPresent (present : Bool) (s : State) : Move .xmPresent s { s with xmPresent := present }
  | lcdPresent (present : Bool) (s : State) : Move .lcdPresent s { s with lcdPresent := present }
  | entry (e : BitVec 2) (s : State) : Move .entry s { s with entry := e }
  | dctrl (d : BitVec 3) (s : State) : Move .dctrl s { s with dctrl := d }
  | fmt (f : DisplayFormat) (s : State) : Move .fmt s { s with fmt := f }
  | err (s : State) : Move .err s { s with err := true }
  | log (s : State) : Move .log s s.emitLog
  | diag (e : Err) (o : Origin) (s : State) : Move .diag s (s.emitDiag e o)
  | temp0 (v : Temp) (s : State) (h : tempInRange v) : Move .readings s { s with temp0 := some v }
  | temp1 (v : Temp) (s : State) (h : tempInRange v) : Move .readings s { s with temp1 := some v }
  | stamp (s : State) : Move .readings s { s with ts := some s.now }
  | publish (s : State) : Move .readings s s.publish
  | phase (p : Phase) (s : State) : Move .phase s { s with phase := p }
  | logTick (s : State) (h : s.logDl ≤ s.now) :
      Move .logDl s { s with logDl := gridAfter s.logDl s.params.logPeriod s.now }
  | armLog (s : State) : Move .logDl s { s with logDl := s.now + s.params.logPeriod }
  | displayTick (s : State) (h : s.dispDl ≤ s.now) :
      Move .dispDl s { s with dispDl := gridAfter s.dispDl s.params.displayPeriod s.now }
  | restartDisplay (s : State) : Move .dispDl s { s with dispDl := s.now }
  | waitStart (s : State) : Move .waitStart s { s with waitStart := s.now }
  | loop (a : Activity) (s : State) : Move .loop s { s with loop := a }
  | drainedIrq (s : State) : Move .drainedIrq s { s with irqPend := false }
  | drainedWake (s : State) : Move .drainedWake s { s with wake := false }
  | setWake (s : State) : Move .setWake s s.setWake
  | setStop (s : State) : Move .setStop s s.setStop

/-- `t` comes from `s` by elementary writes of the elements in `W`, any number of each in any order. -/
def Evolves (W : Set Element) : State → State → Prop := Relation.ReflTransGen fun s t => ∃ e ∈ W, Move e s t

section

variable {W V : Set Element} {s t u : State}

theorem Evolves.refl (s : State) : Evolves W s s := Relation.ReflTransGen.refl

theorem Evolves.trans (h : Evolves W s t) (h' : Evolves W t u) : Evolves W s u := Relation.ReflTransGen.trans h h'

theorem Evolves.mono (h : Evolves W s t) (hsub : W ⊆ V) : Evolves V s t :=
  Relation.ReflTransGen.mono (fun _ _ ⟨e, he, hm⟩ => ⟨e, hsub he, hm⟩) _ _ h

theorem Move.evolves {e : Element} (hm : Move e s t) (he : e ∈ W) : Evolves W s t :=
  Relation.ReflTransGen.single ⟨e, he, hm⟩

theorem Evolves.move {e : Element} (h : Evolves W s t) (hm : Move e t u) (he : e ∈ W) : Evolves W s u :=
  h.trans (hm.evolves he)

/-- A reflexive and transitive relation that every allowed move respects is respected by what is made of them. -/
theorem Evolves.induct {P : State → State → Prop} (h : Evolves W s t) (hrefl : ∀ a, P a a)
    (htrans : ∀ {a b c}, P a b → P b c → P a c) (hmove : ∀ {e a b}, e ∈ W → Move e a b → P a b) : P s t :=
  Relation.ReflTransGen.trans_induction_on h hrefl (fun ⟨_, he, hm⟩ => hmove he hm) (fun _ _ => htrans)

end

/-! ## Results of an operation -/

/-- An operation from `s` writes elements in `W` only, and where it fails, its error and the state it leaves meet
`E`. -/
def Res.Within {α : Type} (W : Set Element) (E : Err → State → Prop) (s : State) : Res α → Prop
  | .ok _ t => Evolves W s t
  | .err e t => Evolves W s t ∧ E e t

/-- The error of a failed transaction, whose record is the newest. -/
def busFailed (e : Err) (t : State) : Prop :=
  e = .bus ∧ ∃ ops, t.trace.getLast? = some { ops := ops, outcome := none }

section

variable {α β : Type} {W V : Set Element} {E F : Err → State → Prop} {s t : State}

theorem Res.Within.mono {r : Res α} (h : r.Within W E s) (hW : W ⊆ V) : r.Within V E s := by
  cases r with
  | ok a t => exact Evolves.mono h hW
  | err e t => exact ⟨h.1.mono hW, h.2⟩

theorem Res.Within.mono_err {r : Res α} (h : r.Within W E s) (hE : ∀ e t, E e t → F e t) : r.Within W F s := by
  cases r with
  | ok a t => exact h
  | err e t => exact ⟨h.1, hE e t h.2⟩

/-- An operation that starts where other writes have led. -/
theorem Res.Within.after {r : Res α} (h : r.Within W E t) (hst : Evolves W s t) : r.Within W E s := by
  cases r with
  | ok a u => exact hst.trans h
  | err e u => exact ⟨hst.trans h.1, h.2⟩

theorem Res.Within.andThen {r : Res α} {k : α → State → Res β} (h : r.Within W E s)
    (hk : ∀ a t, r = .ok a t → (k a t).Within W E t) : (r.andThen k).Within W E s := by
  cases r with
  | ok a t => exact (hk a t rfl).after h
  | err e t => exact h

theorem Res.Within.noResult {r : Res Unit} (h : r.Within W E s) : r.noResult.Within W E s :=
  h.andThen fun _ t _ => Evolves.refl t

/-- What follows an operation may only look at its result. -/
theorem Res.Within.map {r : Res α} (h : r.Within W E s) (f : α → β) :
    (r.andThen fun a t => .ok (f a) t).Within W E s :=
  h.andThen fun _ t _ => Evolves.refl t

end

/-! ## The bus and the expander -/

/-- A transaction that writes none of TLC's copies. -/
def busOnly : Set Element := {.env, .trace}

/-- A register write. -/
def writesRegister (reg : Byte) : Set Element := {.env, .trace, .register reg}

/-- Writes of bank B, as the display and the red LED make them. -/
def writesBankB : Set Element := writesRegister regGpiob

section

variable {s : State}

theorem elapse_evolves {W : Set Element} (h : .env ∈ W) (s : State) : Evolves W s s.elapse := by
  rw [elapse_eq s]
  exact (Move.env _ s).evolves h

theorem interlude_evolves {W : Set Element} (h : .env ∈ W) (s : State) : Evolves W s s.interlude := by
  rw [interlude_eq s]
  exact (Move.env _ s).evolves h

theorem settle_evolves {W : Set Element} (h : .env ∈ W) (s : State) : Evolves W s s.settle := by
  rw [settle_eq s]
  exact (Move.env _ s).evolves h

theorem exchanged_eq (ops : List BusOp) (r : List (List Byte)) (s : State) :
    s.exchanged ops r = s.elapse.emitTrace ops (some r) := by
  rw [State.exchanged, elapse_eq s]
  rfl

theorem exchangeFailed_eq (ops : List BusOp) (s : State) : s.exchangeFailed ops = s.elapse.emitTrace ops none := by
  rw [State.exchangeFailed, elapse_eq s]
  rfl

theorem exchangeFailed_evolves {W : Set Element} (henv : .env ∈ W) (htrace : .trace ∈ W) (ops : List BusOp)
    (s : State) : Evolves W s (s.exchangeFailed ops) := by
  rw [exchangeFailed_eq]
  exact (elapse_evolves henv s).move (.record ops none _ fun _ _ _ _ => rfl) htrace

theorem busFailed_exchangeFailed (ops : List BusOp) (s : State) : busFailed .bus (s.exchangeFailed ops) :=
  ⟨rfl, ops, by simp [State.exchangeFailed]⟩

/-- A transaction that is no register write. -/
theorem txn_within {ops : List BusOp} (h : ∀ a reg w, ops ≠ [.writeBytes a [reg, w]]) (s : State) :
    (txn ops s).Within busOnly busFailed s := by
  obtain ⟨data, -, ht⟩ | ⟨-, ht⟩ := txn_cases ops s
  · rw [ht, Res.Within, exchanged_eq]
    exact (elapse_evolves (by simp [busOnly]) s).move
      (.record ops _ _ fun a reg w hops => absurd hops (h a reg w)) (by simp [busOnly])
  · rw [ht]
    exact ⟨exchangeFailed_evolves (by simp [busOnly]) (by simp [busOnly]) ops s, busFailed_exchangeFailed ops s⟩

theorem regWrite_within (reg v : Byte) (s : State) : (regWrite reg v s).Within (writesRegister reg) busFailed s := by
  obtain ⟨-, hw⟩ | ⟨-, hw⟩ := regWrite_cases reg v s
  · rw [hw, noted_eq]
    have hmove : Evolves (writesRegister reg) s.elapse (s.elapse.regWritten (reg, v)) :=
      (Move.register reg v _).evolves (by simp [writesRegister])
    rw [elapse_eq s, regWritten_envFrom] at hmove
    refine Evolves.trans ?_ hmove
    rw [← elapse_eq s]
    exact elapse_evolves (by simp [writesRegister]) s
  · rw [hw]
    exact ⟨exchangeFailed_evolves (by simp [writesRegister]) (by simp [writesRegister]) _ s,
      busFailed_exchangeFailed _ s⟩

theorem regRead_within (reg : Byte) (s : State) : (regRead reg s).Within busOnly busFailed s :=
  (txn_within (by simp) s).map fun r => readByte r 0

theorem readSensor_within (i : ChannelId) (s : State) : (readSensor i s).Within busOnly busFailed s :=
  (txn_within (by simp [sensorReadOps]) s).map _

theorem writeB_within (v : Byte) (s : State) : (writeB v s).Within writesBankB busFailed s := regWrite_within _ v s

theorem setRed_within (on : Bool) (s : State) : (setRed on s).Within writesBankB busFailed s := by
  unfold setRed
  split
  · exact writeB_within _ s
  · exact Evolves.refl s

theorem regWrites_within {W : Set Element} {ws : List (Byte × Byte)}
    (hW : ∀ w ∈ ws, writesRegister w.1 ⊆ W) (s : State) : (regWrites ws s).Within W busFailed s := by
  induction ws generalizing s with
  | nil => exact Evolves.refl s
  | cons w ws ih =>
    exact ((regWrite_within w.1 w.2 s).mono (hW w List.mem_cons_self)).andThen fun _ t _ =>
      ih (fun v hv => hW v (List.mem_cons_of_mem w hv)) t

/-! ## The display -/

theorem writesB_within (bs : List Byte) (s : State) : (writesB bs s).Within writesBankB busFailed s := by
  induction bs generalizing s with
  | nil => exact Evolves.refl s
  | cons b bs ih => exact (writeB_within b s).andThen fun _ t _ => ih t

theorem send_within (b : Byte) (rs : Bool) (s : State) : (send b rs s).Within writesBankB busFailed s := by
  rw [send_eq]
  exact writesB_within _ s

theorem command_within (b : Byte) (s : State) : (command b s).Within writesBankB busFailed s := by
  unfold command
  split
  · refine (send_within b false s).andThen fun _ t _ => ?_
    split
    · exact settle_evolves (by simp [writesBankB, writesRegister]) t
    · exact Evolves.refl t
  · exact Evolves.refl s

theorem commands_within (bs : List Byte) (s : State) : (commands bs s).Within writesBankB busFailed s := by
  induction bs generalizing s with
  | nil => exact Evolves.refl s
  | cons b bs ih => exact (command_within b s).andThen fun _ t _ => ih t

theorem sendAll_within (bs : List Byte) (s : State) : (sendAll bs s).Within writesBankB busFailed s := by
  induction bs generalizing s with
  | nil => exact Evolves.refl s
  | cons b bs ih => exact (send_within b false s).andThen fun _ t _ => ih t

theorem sendData_within (bs : List Byte) (s : State) : (sendData bs s).Within writesBankB busFailed s := by
  induction bs generalizing s with
  | nil => exact Evolves.refl s
  | cons b bs ih => exact (send_within b true s).andThen fun _ t _ => ih t

theorem putChars_within (cs : List Byte) (s : State) : (putChars cs s).Within writesBankB busFailed s := by
  induction cs generalizing s with
  | nil => exact Evolves.refl s
  | cons c cs ih =>
    refine Res.Within.andThen ?_ fun _ t _ => ih t
    unfold putChar
    split
    · exact command_within _ s
    · exact send_within c true s

theorem message_within (text : List Byte) (s : State) : (message text s).Within writesBankB busFailed s := by
  unfold message
  split
  · exact putChars_within text s
  · exact Evolves.refl s

theorem setPos_within {col row : Byte} (h : ¬ configurationCause (.lcdSetPos col row) s) :
    (setPos col row s).Within writesBankB busFailed s := by
  cases hlcd : s.lcdPresent with
  | false => rw [setPos_absent hlcd]; exact Evolves.refl s
  | true =>
    have hgood : ¬ (col.toInt < 0 ∨ 0x7F < col.toInt + (rowOffset row).toNat) := fun hbad => h ⟨hlcd, hbad⟩
    rw [setPos_eq hlcd (by omega) (by omega)]
    exact command_within _ s

theorem createChar_within {slot : Byte} {bitmap : List Byte} (h : ¬ configurationCause (.lcdCreateChar slot bitmap) s) :
    (createChar slot bitmap s).Within writesBankB busFailed s := by
  unfold createChar
  split_ifs with hlcd hbad
  · exact absurd ⟨hlcd, createChar_bad_iff.1 hbad⟩ h
  · exact (command_within _ s).andThen fun _ t _ => sendData_within bitmap t
  · exact Evolves.refl s

/-- A setter of `DCTRL`. -/
def writesDctrl : Set Element := insert .dctrl writesBankB

/-- A setter of `ENTRY`. -/
def writesEntry : Set Element := insert .entry writesBankB

theorem setDctrl_within (mask : BitVec 3) (value : Bool) (s : State) :
    (setDctrl mask value s).Within writesDctrl busFailed s := by
  unfold setDctrl
  split
  · exact ((command_within _ _).mono (Set.subset_insert _ _)).after
      ((Move.dctrl _ s).evolves (Set.mem_insert _ _))
  · exact Evolves.refl s

theorem setEntry_within (mask : BitVec 2) (value : Bool) (s : State) :
    (setEntry mask value s).Within writesEntry busFailed s := by
  unfold setEntry
  split
  · exact ((command_within _ _).mono (Set.subset_insert _ _)).after
      ((Move.entry _ s).evolves (Set.mem_insert _ _))
  · exact Evolves.refl s

/-- LCD.RESET. -/
def resetsDisplay : Set Element := insert .dctrl (insert .entry writesBankB)

theorem lcdReset_within (s : State) : (lcdReset s).Within resetsDisplay busFailed s := by
  unfold lcdReset
  split
  · refine Res.Within.after ((commands_within _ _).mono ?_)
      (((Move.entry entryDefault s).evolves ?_).move (Move.dctrl dctrlDefault _) ?_)
    · exact (Set.subset_insert _ _).trans (Set.subset_insert _ _)
    · exact Set.mem_insert_of_mem _ (Set.mem_insert _ _)
    · exact Set.mem_insert _ _
  · exact Evolves.refl s

/-! ## Setting up the units -/

/-- XM.INIT. -/
def setsExpander : Set Element :=
  {.env, .trace, .xmPresent, .register regIodira, .register regIodirb, .register regIpola, .register regGppua,
    .register regGpintena, .register regIntcona}

/-- LCD.INIT. -/
def setsDisplay : Set Element := insert .lcdPresent resetsDisplay

/-- XM.INIT fails by leaving the expander absent. -/
theorem xmInit_within (s : State) :
    (xmInit s).Within setsExpander (fun e t => e = .hardwareAbsent ∧ t.xmPresent = false) s := by
  have hstart : Evolves setsExpander s { s with xmPresent := false } :=
    (Move.xmPresent false s).evolves (by simp [setsExpander])
  have hwrites : (regWrites xmInitWrites { s with xmPresent := false }).Within setsExpander busFailed
      { s with xmPresent := false } :=
    regWrites_within (by simp [xmInitWrites, writesRegister, setsExpander, Set.insert_subset_iff]) _
  have hpresent := regWrites_cases xmInitWrites { s with xmPresent := false }
  unfold xmInit
  cases hr : regWrites xmInitWrites { s with xmPresent := false } with
  | ok a t =>
    rw [hr] at hwrites
    exact (hstart.trans hwrites).move (Move.xmPresent true t) (by simp [setsExpander])
  | err e t =>
    rw [hr] at hwrites hpresent
    refine ⟨hstart.trans hwrites.1, rfl, ?_⟩
    obtain ⟨-, hok⟩ | ⟨k, -, -, -, herr⟩ := hpresent
    · cases hok
    · cases herr
      rw [regsWritten_eq]
      rfl

/-- LCD.INIT fails by leaving the display absent. -/
theorem lcdInit_within (s : State) :
    (lcdInit s).Within setsDisplay (fun e t => e = .hardwareAbsent ∧ t.lcdPresent = false) s := by
  have hstart : Evolves setsDisplay s { s with lcdPresent := false } :=
    (Move.lcdPresent false s).evolves (by simp [setsDisplay])
  have hbank : writesBankB ⊆ setsDisplay :=
    (Set.subset_insert _ _).trans ((Set.subset_insert _ _).trans (Set.subset_insert _ _))
  have hrun : ((sendAll lcdInitBytes { s with lcdPresent := false }).andThen fun _ s1 =>
      lcdReset { s1 with lcdPresent := true }).Within setsDisplay busFailed { s with lcdPresent := false } :=
    ((sendAll_within _ _).mono hbank).andThen fun _ t _ =>
      ((lcdReset_within _).mono (Set.subset_insert _ _)).after
        ((Move.lcdPresent true t).evolves (Set.mem_insert _ _))
  unfold lcdInit
  simp only
  split
  · cases hr : ((sendAll lcdInitBytes { s with lcdPresent := false }).andThen fun _ s1 =>
        lcdReset { s1 with lcdPresent := true }) with
    | ok a t =>
      rw [hr] at hrun
      exact hstart.trans hrun
    | err e t =>
      rw [hr] at hrun
      exact ⟨(hstart.trans hrun.1).move (Move.lcdPresent false t) (Set.mem_insert _ _), rfl, rfl⟩
  · exact ⟨hstart, rfl, rfl⟩

end

end Sys2Proof.Machine

/-! # What an elementary write leaves unchanged -/

namespace Sys2Proof.Machine

/-- The readings and what is published of them. -/
def State.readings (s : State) : Option Temp × Option Temp × Option Nat × Snapshot := (s.temp0, s.temp1, s.ts, s.pub)

section

variable {e : Element} {s t : State}

theorem Move.keeps_fixed (h : Move e s t) :
    t.ch0 = s.ch0 ∧ t.ch1 = s.ch1 ∧ t.params = s.params ∧ t.gap = s.gap ∧ t.agent = s.agent := by
  cases h <;> exact ⟨rfl, rfl, rfl, rfl, rfl⟩

/-- The two banks' output registers are not shadowed. -/
theorem Move.keeps_shadow (h : Move e s t)
    (he : ¬ ∃ reg, (reg ≠ regGpioa ∧ reg ≠ regGpiob) ∧ e = .register reg) : t.shadow = s.shadow := by
  cases h with
  | register reg v =>
    by_cases hA : reg = regGpioa
    · subst hA; rfl
    by_cases hB : reg = regGpiob
    · subst hB; rfl
    exact absurd ⟨reg, ⟨hA, hB⟩, rfl⟩ he
  | _ => rfl

theorem Move.keeps_cacheA (h : Move e s t) (he : ¬ ∃ reg, (reg = regGpioa ∨ reg = regOlata) ∧ e = .register reg) :
    t.cacheA = s.cacheA := by
  cases h with
  | register reg => exact if_neg fun hreg => he ⟨reg, hreg, rfl⟩
  | _ => rfl

theorem Move.keeps_cacheB (h : Move e s t) (he : ¬ ∃ reg, (reg = regGpiob ∨ reg = regOlatb) ∧ e = .register reg) :
    t.cacheB = s.cacheB := by
  cases h with
  | register reg => exact if_neg fun hreg => he ⟨reg, hreg, rfl⟩
  | _ => rfl

theorem Move.keeps_xmPresent (h : Move e s t) (he : e ≠ .xmPresent) : t.xmPresent = s.xmPresent := by
  cases h with
  | xmPresent => exact absurd rfl he
  | _ => rfl

theorem Move.keeps_lcdPresent (h : Move e s t) (he : e ≠ .lcdPresent) : t.lcdPresent = s.lcdPresent := by
  cases h with
  | lcdPresent => exact absurd rfl he
  | _ => rfl

theorem Move.keeps_entry (h : Move e s t) (he : e ≠ .entry) : t.entry = s.entry := by
  cases h with
  | entry => exact absurd rfl he
  | _ => rfl

theorem Move.keeps_dctrl (h : Move e s t) (he : e ≠ .dctrl) : t.dctrl = s.dctrl := by
  cases h with
  | dctrl => exact absurd rfl he
  | _ => rfl

theorem Move.keeps_fmt (h : Move e s t) (he : e ≠ .fmt) : t.fmt = s.fmt := by
  cases h with
  | fmt => exact absurd rfl he
  | _ => rfl

theorem Move.keeps_err (h : Move e s t) (he : e ≠ .err) : t.err = s.err := by
  cases h with
  | err => exact absurd rfl he
  | _ => rfl

theorem Move.keeps_log (h : Move e s t) (he : e ≠ .log) : t.log = s.log := by
  cases h with
  | log => exact absurd rfl he
  | _ => rfl

theorem Move.keeps_diag (h : Move e s t) (he : e ≠ .diag) : t.diag = s.diag := by
  cases h with
  | diag => exact absurd rfl he
  | _ => rfl

theorem Move.keeps_readings (h : Move e s t) (he : e ≠ .readings) : t.readings = s.readings := by
  cases h with
  | temp0 | temp1 | stamp | publish => exact absurd rfl he
  | _ => rfl

theorem Move.keeps_phase (h : Move e s t) (he : e ≠ .phase) : t.phase = s.phase := by
  cases h with
  | phase => exact absurd rfl he
  | _ => rfl

theorem Move.keeps_logDl (h : Move e s t) (he : e ≠ .logDl) : t.logDl = s.logDl := by
  cases h with
  | logTick | armLog => exact absurd rfl he
  | _ => rfl

theorem Move.keeps_dispDl (h : Move e s t) (he : e ≠ .dispDl) : t.dispDl = s.dispDl := by
  cases h with
  | displayTick | restartDisplay => exact absurd rfl he
  | _ => rfl

theorem Move.keeps_waitStart (h : Move e s t) (he : e ≠ .waitStart) : t.waitStart = s.waitStart := by
  cases h with
  | waitStart => exact absurd rfl he
  | _ => rfl

theorem Move.keeps_loop (h : Move e s t) (he : e ≠ .loop) : t.loop = s.loop := by
  cases h with
  | loop => exact absurd rfl he
  | _ => rfl

theorem Move.keeps_draws (h : Move e s t) (he : e ≠ .env) : t.env = s.env ∧ t.drawn = s.drawn := by
  cases h with
  | env => exact absurd rfl he
  | _ => exact ⟨rfl, rfl⟩

end

section

variable {α : Type} {W : Set Element} {s t : State}

/-- What the writes of all elements but those of `p` leave unchanged changes only where such an element is written. -/
theorem Evolves.keeps_or {f : State → α} {p : Element → Prop}
    (hf : ∀ {e a b}, Move e a b → ¬ p e → f b = f a) (h : Evolves W s t) : f t = f s ∨ ∃ e ∈ W, p e := by
  by_cases hp : ∃ e ∈ W, p e
  · exact .inr hp
  · left
    refine Evolves.induct (P := fun a b => f b = f a) h (fun _ => rfl) (fun hab hbc => hbc.trans hab) ?_
    exact fun he hm => hf hm fun hpe => hp ⟨_, he, hpe⟩

/-- The same for what one element holds. -/
theorem Evolves.keeps_or_mem {f : State → α} {e₀ : Element}
    (hf : ∀ {e a b}, Move e a b → e ≠ e₀ → f b = f a) (h : Evolves W s t) : f t = f s ∨ e₀ ∈ W := by
  refine (h.keeps_or (p := (· = e₀)) hf).imp_right ?_
  rintro ⟨e, he, rfl⟩
  exact he

theorem Evolves.keeps {f : State → α} {e₀ : Element}
    (hf : ∀ {e a b}, Move e a b → e ≠ e₀ → f b = f a) (h : Evolves W s t) (hW : e₀ ∉ W) : f t = f s :=
  (h.keeps_or_mem hf).resolve_right hW

theorem Evolves.keeps_fixed (h : Evolves W s t) :
    t.ch0 = s.ch0 ∧ t.ch1 = s.ch1 ∧ t.params = s.params ∧ t.gap = s.gap ∧ t.agent = s.agent := by
  refine Evolves.induct (P := fun a b => b.ch0 = a.ch0 ∧ b.ch1 = a.ch1 ∧ b.params = a.params ∧ b.gap = a.gap ∧
    b.agent = a.agent) h (fun _ => ⟨rfl, rfl, rfl, rfl, rfl⟩) ?_ fun _ hm => hm.keeps_fixed
  rintro a b c ⟨h0, h1, hp, hg, ha⟩ ⟨h0', h1', hp', hg', ha'⟩
  exact ⟨h0'.trans h0, h1'.trans h1, hp'.trans hp, hg'.trans hg, ha'.trans ha⟩

theorem readings_inj (h : t.readings = s.readings) :
    t.temp0 = s.temp0 ∧ t.temp1 = s.temp1 ∧ t.ts = s.ts ∧ t.pub = s.pub := by
  simpa only [State.readings, Prod.mk.injEq] using h

end

end Sys2Proof.Machine

/-! # What the scheduler's requests can do

The wait, the iteration and start-up as sequences of elementary writes, and with them `exec_ended`: how every request
ends. -/

namespace Sys2Proof.Machine

/-! ## The wait (R263 to R265) -/

/-- A drain. -/
def drains : Set Element := {.logDl, .dispDl, .drainedIrq, .drainedWake}

/-- SCHED.WAIT. -/
def writesOfWait : Set Element := drains ∪ {.env, .waitStart, .loop}

theorem waitOutcome_evolves {s b : State} {code : Byte} (h : waitOutcome s = some (code, b)) : Evolves drains s b := by
  unfold waitOutcome at h
  split_ifs at h with hstop hlog hdisp hirq hwake htmo <;>
    simp only [Option.some.injEq, Prod.mk.injEq] at h <;> obtain ⟨-, rfl⟩ := h
  · exact Evolves.refl s
  · exact (Move.logTick s hlog).evolves (by simp [drains])
  · exact (Move.displayTick s hdisp).evolves (by simp [drains])
  · exact (Move.drainedIrq s).evolves (by simp [drains])
  · exact (Move.drainedWake s).evolves (by simp [drains])
  · exact Evolves.refl s

theorem evalWait_evolves {s b : State} {ev : Event} (h : evalWait s = some (ev, b)) : Evolves drains s b := by
  have hmap := evalWait_eq s
  rw [h] at hmap
  exact waitOutcome_evolves hmap.symm

/-! ## The actions (R267 to R274) -/

/-- READ_SENSORS. -/
def writesOfReads : Set Element := writesBankB ∪ {.diag, .err, .readings}

/-- The actions of an iteration. -/
def writesOfActions : Set Element := writesBankB ∪ {.log, .diag, .fmt, .dispDl}

/-- SCHED.ITERATE, and a pass of SCHED.RUN. -/
def writesOfPass : Set Element := writesOfWait ∪ writesOfReads ∪ writesOfActions ∪ {.phase}

section

variable {s : State}

/-- What polling a channel writes, apart from what it reads. -/
theorem pollSensor_evolves (i : ChannelId) (o : Origin) (s : State) :
    Evolves (writesBankB ∪ {.diag, .err}) s (pollSensor i o s).2 := by
  have hread := readSensor_within i s
  unfold pollSensor
  cases hr : readSensor i s with
  | ok r t =>
    rw [hr] at hread
    exact Evolves.mono hread (by simp [busOnly, writesBankB, writesRegister, Set.insert_subset_iff])
  | err e t =>
    rw [hr] at hread
    have hfailed : Evolves (writesBankB ∪ {.diag, .err}) s { t.emitDiag e o with err := true } :=
      ((hread.1.mono (by simp [busOnly, writesBankB, writesRegister, Set.insert_subset_iff])).move
        (Move.diag e o t) (by simp)).move (Move.err _) (by simp)
    have hled := ((setRed_within true { t.emitDiag e o with err := true }).mono
      (Set.subset_union_left (t := {.diag, .err}))).after hfailed
    simp only
    cases hset : setRed true { t.emitDiag e o with err := true } with
    | ok a u => rw [hset] at hled; exact hled
    | err e u => rw [hset] at hled; exact hled.1.move (Move.diag e .redLed u) (by simp)

/-- What a poll reads is in the codec's range (R234). -/
theorem pollSensor_inRange {i : ChannelId} {o : Origin} {v : Temp} (h : (pollSensor i o s).1 = some v) :
    tempInRange v := by
  rw [pollSensor_eq] at h
  unfold State.polled at h
  split at h
  · cases h
  · cases h
    exact tempInRange_sensedReading _ _

theorem setTemp0_evolves {W : Set Element} (hW : .readings ∈ W) {o : Option Temp}
    (ho : ∀ v, o = some v → tempInRange v) (s : State) : Evolves W s { s with temp0 := o.or s.temp0 } := by
  cases o with
  | none => exact Evolves.refl s
  | some v => exact (Move.temp0 v s (ho v rfl)).evolves hW

theorem setTemp1_evolves {W : Set Element} (hW : .readings ∈ W) {o : Option Temp}
    (ho : ∀ v, o = some v → tempInRange v) (s : State) : Evolves W s { s with temp1 := o.or s.temp1 } := by
  cases o with
  | none => exact Evolves.refl s
  | some v => exact (Move.temp1 v s (ho v rfl)).evolves hW

theorem stampIf_evolves {W : Set Element} (hW : .readings ∈ W) (read : Bool) (s : State) :
    Evolves W s { s with ts := if read then some s.now else s.ts } := by
  cases read with
  | false => exact Evolves.refl s
  | true => exact (Move.stamp s).evolves hW

theorem setReadings_evolves {W : Set Element} (hW : .readings ∈ W) {o0 o1 : Option Temp}
    (h0 : ∀ v, o0 = some v → tempInRange v) (h1 : ∀ v, o1 = some v → tempInRange v) (read : Bool) (s : State) :
    Evolves W s { s with
      temp0 := o0.or s.temp0, temp1 := o1.or s.temp1, ts := if read then some s.now else s.ts } :=
  (setTemp0_evolves hW h0 s).trans ((setTemp1_evolves hW h1 _).trans (stampIf_evolves hW read _))

/-- The two polls leave the readings for the step itself to write, so it is the polls, then its writes. -/
theorem readSensors_evolves (s : State) : Evolves writesOfReads s (readSensors s) := by
  have hsub : writesBankB ∪ {.diag, .err} ⊆ writesOfReads :=
    Set.union_subset_union_right _ (by simp [Set.insert_subset_iff])
  have hmem : Element.readings ∈ writesOfReads := by simp [writesOfReads]
  have hpolls : Evolves (writesBankB ∪ {.diag, .err}) s
      (pollSensor .outside .sensor1 (pollSensor .inside .sensor0 s).2).2 :=
    (pollSensor_evolves _ _ _).trans (pollSensor_evolves _ _ _)
  obtain ⟨h0, h1, -, -⟩ := readings_inj (hpolls.keeps Move.keeps_readings (by simp [writesBankB, writesRegister]))
  unfold readSensors
  simp only [← h0, ← h1]
  refine Evolves.move ?_ (Move.publish _) hmem
  refine (hpolls.mono hsub).trans ?_
  exact setReadings_evolves hmem (fun _ => pollSensor_inRange) (fun _ => pollSensor_inRange) _ _

theorem showText_evolves (text : List Byte) (s : State) : Evolves writesOfActions s (showText text s) := by
  have hrun : ((command cmdClear s).andThen fun _ s1 => message text s1).Within writesOfActions busFailed s :=
    ((command_within _ s).andThen fun _ t _ => message_within text t).mono Set.subset_union_left
  unfold showText
  cases hr : (command cmdClear s).andThen fun _ s1 => message text s1 with
  | ok a t => rw [hr] at hrun; exact hrun
  | err e t => rw [hr] at hrun; exact hrun.1.move (Move.diag e .display t) (by simp [writesOfActions])

theorem displayAction_evolves (s : State) : Evolves writesOfActions s (displayAction s) := by
  unfold displayAction
  split
  · exact showText_evolves _ s
  · exact Evolves.refl s

theorem actOnMask_evolves (mask : Byte) (s : State) : Evolves writesOfActions s (actOnMask mask s) := by
  unfold actOnMask
  split
  · exact Evolves.refl s
  · split
    · exact ((Move.fmt _ s).evolves (by simp [writesOfActions])).move (Move.restartDisplay _)
        (by simp [writesOfActions])
    · split
      · exact showText_evolves _ s
      · exact Evolves.refl s

theorem ackInt_within (h : s.xmPresent = true) : (ackInt s).Within busOnly busFailed s := by
  rw [ackInt, if_pos h]
  exact regRead_within _ s

theorem readButtons_within (h : s.xmPresent = true) : (readButtons s).Within busOnly busFailed s := by
  rw [readButtons, if_pos h]
  exact (regRead_within _ s).map _

theorem busOnly_subset_writesBankB : busOnly ⊆ writesBankB := by
  simp [busOnly, writesBankB, writesRegister, Set.insert_subset_iff]

/-- No read changes the expander's presence, so the second read of the button action is made too. -/
theorem buttonAction_evolves (s : State) : Evolves writesOfActions s (buttonAction s) := by
  unfold buttonAction
  split
  next hx =>
    have hack := ackInt_within hx
    have hreads : ((ackInt s).andThen fun _ s1 => readButtons s1).Within busOnly busFailed s := by
      refine hack.andThen fun a t ht => readButtons_within ?_
      rw [ht] at hack
      rw [Evolves.keeps Move.keeps_xmPresent hack (by simp [busOnly]), hx]
    have hreads' := hreads.mono
      (busOnly_subset_writesBankB.trans (Set.subset_union_left (t := {.log, .diag, .fmt, .dispDl})))
    cases hr : (ackInt s).andThen fun _ s1 => readButtons s1 with
    | ok mask t => rw [hr] at hreads'; exact hreads'.trans (actOnMask_evolves mask t)
    | err e t => rw [hr] at hreads'; exact hreads'.1.move (Move.diag e .buttons t) (by simp)
  next => exact Evolves.refl s

theorem eventAction_evolves (ev : Event) (s : State) : Evolves writesOfActions s (eventAction ev s) := by
  cases ev with
  | logTick => exact (Move.log s).evolves (by simp [writesOfActions])
  | displayTick => exact displayAction_evolves s
  | hardwareInterrupt => exact buttonAction_evolves s
  | wakeRequest | timeout | stop => exact Evolves.refl s

/-! ## The passes (R267, R268, R279) -/

theorem writesOfWait_subset : writesOfWait ⊆ writesOfPass :=
  Set.subset_union_left.trans (Set.subset_union_left.trans Set.subset_union_left)

theorem writesOfReads_subset : writesOfReads ⊆ writesOfPass :=
  Set.subset_union_right.trans (Set.subset_union_left.trans Set.subset_union_left)

theorem writesOfActions_subset : writesOfActions ⊆ writesOfPass := Set.subset_union_right.trans Set.subset_union_left

theorem afterWait_evolves (ev : Event) (s : State) : Evolves writesOfPass s (afterWait ev s).2 := by
  have hbetween : Evolves writesOfPass s s.interlude :=
    interlude_evolves (writesOfWait_subset (by simp [writesOfWait])) s
  unfold afterWait
  simp only
  split
  · exact hbetween.move (Move.phase .stopped _) (by simp [writesOfPass])
  · exact hbetween.trans (((readSensors_evolves _).mono writesOfReads_subset).trans
      ((eventAction_evolves ev _).mono writesOfActions_subset))

/-- What one step of a waiting request, from `s`, can end in: an answer with status 0 and no request in progress, or
no answer and a request in progress. -/
inductive PassEnds (W : Set Element) (s : State) : State → Prop where
  | answered (results : List Byte) (t : State) (h : Evolves W s t) (hloop : t.loop = .idle) :
      PassEnds W s (t.respond (0 :: results))
  | goesOn (t : State) (h : Evolves W s t) (hloop : t.loop ≠ .idle) : PassEnds W s t

theorem PassEnds.after {W : Set Element} {s t u : State} (h : PassEnds W t u) (hst : Evolves W s t) :
    PassEnds W s u := by
  cases h with
  | answered results u h hloop => exact .answered results u (hst.trans h) hloop
  | goesOn _ h hloop => exact .goesOn u (hst.trans h) hloop

theorem PassEnds.mono {W V : Set Element} {s t : State} (h : PassEnds W s t) (hsub : W ⊆ V) : PassEnds V s t := by
  cases h with
  | answered results u h hloop => exact .answered results u (h.mono hsub) hloop
  | goesOn _ h hloop => exact .goesOn t (h.mono hsub) hloop

theorem endPass_ends {W : Set Element} (hW : .loop ∈ W) (w : Waiter) (ev : Event) (s : State) :
    PassEnds W s (endPass w ev s) := by
  have hidle : Evolves W s { s with loop := .idle } := (Move.loop .idle s).evolves hW
  cases w with
  | wait | iterate => exact .answered [ev.code] _ hidle rfl
  | run =>
    simp only [endPass]
    split
    · exact .goesOn _ ((Move.loop .running s).evolves hW) (by simp)
    · exact .answered [] _ hidle rfl

/-- The writes of one step of a request in its wait. -/
def writesOfWaiter : Waiter → Set Element
  | .wait => writesOfWait
  | .iterate => writesOfPass
  | .run => writesOfPass

theorem writesOfWait_subset_waiter (w : Waiter) : writesOfWait ⊆ writesOfWaiter w := by
  cases w with
  | wait => exact Set.Subset.rfl
  | iterate | run => exact writesOfWait_subset

theorem loop_mem_writesOfWaiter (w : Waiter) : Element.loop ∈ writesOfWaiter w :=
  writesOfWait_subset_waiter w (by simp [writesOfWait])

theorem afterWaitOf_ends (w : Waiter) (ev : Event) (s : State) :
    PassEnds (writesOfWaiter w) s (afterWaitOf w ev s) := by
  cases w with
  | wait => exact endPass_ends (loop_mem_writesOfWaiter .wait) .wait ev s
  | iterate =>
    exact (endPass_ends (loop_mem_writesOfWaiter .iterate) .iterate (afterWait ev s).1 _).after (afterWait_evolves ev s)
  | run => exact (endPass_ends (loop_mem_writesOfWaiter .run) .run (afterWait ev s).1 _).after (afterWait_evolves ev s)

theorem tryWait_ends (w : Waiter) (s : State) : PassEnds (writesOfWaiter w) s (tryWait w s) := by
  unfold tryWait
  split
  next ev b hev =>
    exact (afterWaitOf_ends w ev b).after
      ((evalWait_evolves hev).mono (Set.subset_union_left.trans (writesOfWait_subset_waiter w)))
  next => exact .goesOn _ ((Move.loop (.waiting w) s).evolves (loop_mem_writesOfWaiter w)) (by simp)

theorem startWait_ends (w : Waiter) (s : State) : PassEnds (writesOfWaiter w) s (startWait w s) :=
  (tryWait_ends w _).after
    ((Move.waitStart s).evolves (writesOfWait_subset_waiter w (by simp [writesOfWait])))

theorem startPass_ends {w : Waiter} (hw : writesOfWaiter w = writesOfPass) (s : State) :
    PassEnds writesOfPass s (startPass w s) := by
  unfold startPass
  split
  · exact (endPass_ends (writesOfWait_subset (by simp [writesOfWait])) w .stop _).after
      ((Move.phase .stopped s).evolves (by simp [writesOfPass]))
  · have hstart := startWait_ends w s.interlude
    rw [hw] at hstart
    exact hstart.after (interlude_evolves (writesOfWait_subset (by simp [writesOfWait])) s)

theorem runHead_ends (s : State) : PassEnds writesOfPass s (runHead s) := by
  unfold runHead
  split
  · exact startPass_ends (w := .run) rfl s
  · exact .answered [] _ ((Move.loop .idle s).evolves (writesOfWait_subset (by simp [writesOfWait]))) rfl

/-! ## Start-up (R261) -/

/-- SCHED.START. -/
def writesOfStart : Set Element := setsExpander ∪ setsDisplay ∪ {.diag, .readings, .phase, .logDl, .dispDl}

/-- Trying a unit adds a record when the unit is absent. -/
theorem triedUnit_evolves {W V : Set Element} {E : Err → State → Prop} {r : Res Unit} (h : r.Within W E s)
    (hsub : W ⊆ V) (hdiag : .diag ∈ V) (o : Origin) : Evolves V s (triedUnit r o) := by
  cases r with
  | ok a t => exact Evolves.mono h hsub
  | err e t => exact (h.1.mono hsub).move (Move.diag e o t) hdiag

theorem startUnits_evolves (s : State) : Evolves (setsExpander ∪ setsDisplay ∪ {.diag}) s (startUnits s) := by
  have hexpander : Evolves (setsExpander ∪ setsDisplay ∪ {.diag}) s (triedUnit (xmInit s) .expander) :=
    triedUnit_evolves (xmInit_within s) (Set.subset_union_left.trans Set.subset_union_left) (by simp) .expander
  rw [startUnits_eq]
  split
  · exact hexpander.trans (triedUnit_evolves (lcdInit_within _)
      (Set.subset_union_right.trans Set.subset_union_left) (by simp) .display)
  · exact hexpander

/-- A probe that fails is fatal. -/
theorem probeSensor_within (i : ChannelId) (o : Origin) (s : State) :
    (probeSensor i o s).Within {.env, .trace, .diag, .phase}
      (fun e t => e = .hardwareAbsent ∧ t.phase = .fatal) s := by
  have hread := (readSensor_within i s).mono (V := {.env, .trace, .diag, .phase})
    (by simp [busOnly, Set.insert_subset_iff])
  unfold probeSensor
  cases hr : readSensor i s with
  | ok r t => rw [hr] at hread; exact hread
  | err e t =>
    rw [hr] at hread
    exact ⟨(hread.1.move (Move.diag e o t) (by simp)).move (Move.phase .fatal _) (by simp), rfl, rfl⟩

theorem probeSensor_inRange {i : ChannelId} {o : Origin} {t : State} {v : Temp} (h : probeSensor i o s = .ok v t) :
    tempInRange v := by
  by_cases hbus : s.nextDraw.outcome = .busError
  · rw [probeSensor_failed i o hbus] at h
    cases h
  · rw [probeSensor_ok i o hbus] at h
    cases h
    exact tempInRange_sensedReading _ _

theorem armTimers_evolves {W : Set Element} (h : {.readings, .dispDl, .logDl, .phase} ⊆ W) (s : State) :
    Evolves W s (armTimers s) := by
  simp only [Set.insert_subset_iff, Set.singleton_subset_iff] at h
  obtain ⟨hreadings, hdisp, hlog, hphase⟩ := h
  exact ((((Move.stamp s).evolves hreadings).move (Move.publish _) hreadings).move (Move.restartDisplay _) hdisp).move
    (Move.armLog _) hlog |>.move (Move.phase .running _) hphase

/-- The two probes and the end of start-up, after the units. -/
theorem schedStart_within (h : s.phase = .reset) :
    (schedStart s).Within writesOfStart (fun e t => e = .hardwareAbsent ∧ t.phase = .fatal) s := by
  have hprobe : ({.env, .trace, .diag, .phase} : Set Element) ⊆ writesOfStart := by
    simp [writesOfStart, setsExpander, Set.insert_subset_iff]
  rw [schedStart, if_pos h]
  refine Res.Within.after ?_ ((startUnits_evolves s).mono
    (Set.union_subset_union_right _ (by simp)))
  refine ((probeSensor_within _ _ _).mono hprobe).andThen fun v0 t h0 => ?_
  refine Res.Within.after (t := { t with temp0 := some v0 }) ?_
    ((Move.temp0 v0 t (probeSensor_inRange h0)).evolves (by simp [writesOfStart]))
  refine ((probeSensor_within _ _ _).mono hprobe).andThen fun v1 u h1 => ?_
  exact ((Move.temp1 v1 u (probeSensor_inRange h1)).evolves (by simp [writesOfStart])).trans
    (armTimers_evolves (by simp [writesOfStart, Set.insert_subset_iff]) _)

end

end Sys2Proof.Machine

/-! # How every request ends -/

namespace Sys2Proof.Machine

/-- The rows of the "writers" column (10_state.md R21): the elements a request may write. -/
def writesOf : Instr → Set Element
  | .tcDecodeA _ _ _ | .tcEncodeA _ _ | .tcDecodeB _ _ _ | .tcEncodeB _ _ | .xmTestButton _ _ | .schedSnapshot => ∅
  | .scRead _ | .scWriteThreshold _ _ _ | .xmRead _ | .xmAckInt | .xmReadButtons => busOnly
  | .xmWrite reg _ => writesRegister reg
  | .xmInit => setsExpander
  | .xmSetGreen _ | .xmSetBacklight _ => writesRegister regGpioa
  | .xmWriteB _ | .xmSetRed _ | .lcdSend _ _ | .lcdCommand _ | .lcdData _ | .lcdClear | .lcdHome | .lcdScrollLeft
  | .lcdScrollRight | .lcdSetPos _ _ | .lcdMessage _ | .lcdCreateChar _ _ => writesBankB
  | .lcdInit => setsDisplay
  | .lcdReset => resetsDisplay
  | .lcdSetDisplay _ | .lcdSetCursor _ | .lcdSetBlink _ => writesDctrl
  | .lcdLeftToRight | .lcdRightToLeft | .lcdSetAutoscroll _ => writesEntry
  | .schedStart => writesOfStart
  | .schedWait => writesOfWait
  | .schedIterate => writesOfPass
  | .schedRestartDisplay => {.dispDl}
  | .schedWake => {.setWake}
  | .schedStop => {.setStop}
  | .schedRun => writesOfStart ∪ writesOfPass

/-- What a request that was not refused has to show for an error (60_exceptions.md R311, R313). -/
def errorCause (i : Instr) (s : State) : Err → State → Prop
  | .bus, t => canAnswerBusError i ∧ ∃ ops, t.trace.getLast? = some { ops := ops, outcome := none }
  | .configuration, _ => False
  | .hardwareAbsent, t => hardwareCause i s t

/-- The ends of a request that is not refused: an answer with status 0, an answer with an error that has its cause, or
no answer yet. -/
inductive Ended (i : Instr) (s : State) : State → Prop where
  | answered (results : List Byte) (t : State) (h : Evolves (writesOf i) s t) : Ended i s (t.respond (0 :: results))
  | failed (e : Err) (t : State) (h : Evolves (writesOf i) s t) (hcause : errorCause i s e t) :
      Ended i s (t.respond [e.code])
  | goesOn (t : State) (h : Evolves (writesOf i) s t) (hi : waits i) (hloop : t.loop ≠ .idle) : Ended i s t

section

variable {i : Instr} {s : State}

theorem ended_of_within {r : Res (List Byte)} (h : r.Within (writesOf i) (errorCause i s) s) :
    ∃ t, finish r = .next t ∧ Ended i s t := by
  cases r with
  | ok results t => exact ⟨_, finish_ok results t, .answered results t h⟩
  | err e t => exact ⟨_, finish_err e t, .failed e t h.1 h.2⟩

/-- A request whose only error is that of a failed transaction. -/
theorem ended_of_bus {W : Set Element} {r : Res (List Byte)} (h : r.Within W busFailed s) (hW : W ⊆ writesOf i)
    (hi : canAnswerBusError i) : ∃ t, finish r = .next t ∧ Ended i s t := by
  refine ended_of_within ((h.mono hW).mono_err fun e t he => ?_)
  obtain ⟨rfl, hrecord⟩ := he
  exact ⟨hi, hrecord⟩

/-- A request whose only error is an absent unit. -/
theorem ended_of_absent {W : Set Element} {p : State → Prop} {r : Res (List Byte)}
    (h : r.Within W (fun e t => e = .hardwareAbsent ∧ p t) s) (hW : W ⊆ writesOf i)
    (hi : ∀ t, p t → hardwareCause i s t) : ∃ t, finish r = .next t ∧ Ended i s t := by
  refine ended_of_within ((h.mono hW).mono_err fun e t he => ?_)
  obtain ⟨rfl, hp⟩ := he
  exact hi t hp

theorem ended_of_pass {t : State} (h : PassEnds (writesOf i) s t) (hi : waits i) : Ended i s t := by
  cases h with
  | answered results u h => exact .answered results u h
  | goesOn _ h hloop => exact .goesOn t h hi hloop

/-- A `bool` operand byte in its range (30_encoding.md R93). -/
theorem exists_boolByte {b : Byte} (h : ¬ 1 < b.toNat) : ∃ v, b = boolByte v := by
  have hb : b = 0 ∨ b = 1 := by bv_omega
  obtain rfl | rfl := hb
  · exact ⟨false, rfl⟩
  · exact ⟨true, rfl⟩

theorem withBool_refused {b : Byte} (h : 1 < b.toNat) (k : Bool → Res (List Byte)) :
    finish (withBool b s k) = .next (s.respond [2]) := by
  obtain ⟨h0, h1⟩ := ne_of_one_lt h
  rw [withBool_bad h0 h1, finish_err]
  rfl

theorem setGreen_within (on : Bool) (s : State) : (setGreen on s).Within (writesRegister regGpioa) busFailed s := by
  unfold setGreen
  split
  · exact regWrite_within _ _ s
  · exact Evolves.refl s

theorem setBacklight_within (on : Bool) (s : State) :
    (setBacklight on s).Within (writesRegister regGpioa) busFailed s := by
  unfold setBacklight
  split
  · exact regWrite_within _ _ s
  · exact Evolves.refl s

/-! ## Refused requests (60_exceptions.md R312) -/

/-- A cause of a ConfigurationError ends the request before it does anything. -/
theorem exec_refused (h : configurationCause i s) : exec i s = .next (s.respond [2]) := by
  cases i with
  | tcDecodeA hi lo ext => exact exec_tcDecodeA_refused hi lo (extOf_eq_none h)
  | tcEncodeA x ext => exact exec_tcEncodeA_refused (h.imp_left extOf_eq_none)
  | tcDecodeB hi lo res => exact exec_tcDecodeB_refused hi lo (resOf_eq_none h)
  | tcEncodeB x res => exact exec_tcEncodeB_refused ((or_assoc.2 h).imp_left resOf_eq_none)
  | scRead ch => exact exec_scRead_refused (channelOf_eq_none h)
  | scWriteThreshold ch which x =>
    exact exec_scWriteThreshold_refused (h.imp channelOf_eq_none (Or.imp_left thresholdPointer_eq_none))
  | xmWrite reg v => rw [exec_xmWrite, if_pos ((gt_regMax_iff reg).2 h)]; rfl
  | xmRead reg => rw [exec_xmRead, if_pos ((gt_regMax_iff reg).2 h)]; rfl
  | xmTestButton mask id =>
    have hid : id > 5 := BitVec.lt_def.2 h
    rw [exec_xmTestButton, if_pos hid]
    rfl
  | xmSetRed on | xmSetGreen on | xmSetBacklight on | lcdSetDisplay on | lcdSetCursor on | lcdSetBlink on
  | lcdSetAutoscroll on => exact withBool_refused h _
  | lcdSend b rs => exact withBool_refused h _
  | lcdSetPos col row =>
    obtain ⟨hlcd, hbad⟩ := h
    rw [exec_lcdSetPos, setPos_refused hlcd hbad]
    rfl
  | lcdCreateChar slot bitmap =>
    obtain ⟨hlcd, hbad⟩ := h
    rw [exec_lcdCreateChar, createChar_refused hlcd hbad]
    rfl
  | schedStart => exact exec_schedStart_refused h
  | schedWait => exact exec_schedWait_refused h
  | schedRestartDisplay => exact exec_schedRestartDisplay_refused h
  | schedIterate => simp only [exec, execSchedIterate, if_neg h, reply_err, Err.code]
  | schedRun => obtain hphase | hphase := h <;> simp only [exec, execSchedRun, hphase, reply_err, Err.code]
  | xmInit | xmWriteB | xmAckInt | xmReadButtons | lcdCommand | lcdData | lcdInit | lcdReset | lcdClear | lcdHome
  | lcdLeftToRight | lcdRightToLeft | lcdScrollLeft | lcdScrollRight | lcdMessage | schedWake | schedStop
  | schedSnapshot => exact absurd h not_false

/-! ## The others -/

/-- A request of U3 that a missing display stops. -/
theorem ifPresent_within {present : Bool} {r : Res Unit} (h : r.Within writesBankB busFailed s) :
    (if present then r.noResult else .ok [] s).Within writesBankB busFailed s := by
  cases present with
  | false => exact Evolves.refl s
  | true => exact h.noResult

theorem exec_schedRun_ended (h : ¬ configurationCause .schedRun s) :
    ∃ t, exec .schedRun s = .next t ∧ Ended .schedRun s t := by
  cases hphase : s.phase with
  | reset =>
    have hstart := (schedStart_within hphase).mono (V := writesOf .schedRun) Set.subset_union_left
    simp only [exec, execSchedRun, hphase]
    cases hr : schedStart s with
    | ok a t =>
      rw [hr] at hstart
      refine ⟨_, rfl, .goesOn _ (Evolves.move hstart (Move.loop .running t) ?_) (.inr (.inr rfl)) (by simp)⟩
      exact Set.mem_union_right _ (writesOfWait_subset (by simp [writesOfWait]))
    | err e t =>
      rw [hr] at hstart
      obtain ⟨hevolves, rfl, hfatal⟩ := hstart
      exact ⟨_, rfl, .failed .hardwareAbsent t hevolves (.inr (.inr (.inr ⟨.inr rfl, hfatal⟩)))⟩
  | running =>
    simp only [exec, execSchedRun, hphase]
    exact ⟨_, rfl, ended_of_pass ((runHead_ends s).mono Set.subset_union_right) (.inr (.inr rfl))⟩
  | stopped => exact absurd (.inl hphase) h
  | fatal => exact absurd (.inr hphase) h

theorem exists_channelOf_of_le {ch : Byte} (h : ¬ 1 < ch.toNat) : ∃ i, channelOf ch = some i := by
  obtain ⟨b, rfl⟩ := exists_boolByte h
  cases b <;> exact ⟨_, rfl⟩

theorem exists_thresholdPointer {which : Byte} (h : ¬ 1 < which.toNat) : ∃ ptr, thresholdPointer which = some ptr := by
  obtain ⟨b, rfl⟩ := exists_boolByte h
  cases b <;> exact ⟨_, rfl⟩

/-- How every request that is not refused ends: it writes what its row allows, and its answer has its cause. -/
theorem exec_ended (h : ¬ configurationCause i s) : ∃ t, exec i s = .next t ∧ Ended i s t := by
  have hbus {r : Res Unit} (hr : r.Within (writesOf i) busFailed s) (hi : canAnswerBusError i) :
      ∃ t, finish r.noResult = .next t ∧ Ended i s t := ended_of_bus hr.noResult Set.Subset.rfl hi
  cases i with
  -- U1
  | tcDecodeA hi lo ext =>
    obtain ⟨e, he, -⟩ := exists_extOf (Nat.not_lt.1 h)
    exact ⟨_, exec_tcDecodeA hi lo he, .answered _ s (Evolves.refl s)⟩
  | tcEncodeA x ext =>
    obtain ⟨hext, hx⟩ := not_or.1 h
    obtain ⟨e, he, -⟩ := exists_extOf (Nat.not_lt.1 hext)
    obtain ⟨xc, hxc⟩ := exists_clampedValue (-55) (highA e) hx
    exact ⟨_, exec_tcEncodeA he (encodeA_eq hxc), .answered _ s (Evolves.refl s)⟩
  | tcDecodeB hi lo res =>
    obtain ⟨hlow, hhigh⟩ := not_or.1 h
    obtain ⟨r, hr, -⟩ := exists_resOf (Nat.not_lt.1 hlow) (Nat.not_lt.1 hhigh)
    exact ⟨_, exec_tcDecodeB hi lo hr, .answered _ s (Evolves.refl s)⟩
  | tcEncodeB x res =>
    obtain ⟨hlow, hrest⟩ := not_or.1 h
    obtain ⟨hhigh, hx⟩ := not_or.1 hrest
    obtain ⟨r, hr, -⟩ := exists_resOf (Nat.not_lt.1 hlow) (Nat.not_lt.1 hhigh)
    obtain ⟨xc, hxc⟩ := exists_clampedValue (-55) 128 hx
    exact ⟨_, exec_tcEncodeB hr (encodeB_eq hxc), .answered _ s (Evolves.refl s)⟩
  | scRead ch =>
    obtain ⟨c, hc⟩ := exists_channelOf_of_le h
    rw [exec_scRead hc]
    exact ended_of_bus ((readSensor_within c s).map _) Set.Subset.rfl trivial
  | scWriteThreshold ch which x =>
    obtain ⟨hch, hrest⟩ := not_or.1 h
    obtain ⟨hwhich, hx⟩ := not_or.1 hrest
    obtain ⟨c, hc⟩ := exists_channelOf_of_le hch
    obtain ⟨ptr, hptr⟩ := exists_thresholdPointer hwhich
    obtain ⟨p, hp⟩ := exists_channelEncode s.params.encTop (s.channel c) hx
    rw [exec_scWriteThreshold hc hptr hp]
    exact ended_of_bus ((txn_within (by simp) s).map _) Set.Subset.rfl trivial
  -- U2
  | xmWrite reg v =>
    rw [exec_xmWrite, if_neg (mt (gt_regMax_iff reg).1 h)]
    exact hbus (regWrite_within reg v s) trivial
  | xmRead reg =>
    rw [exec_xmRead, if_neg (mt (gt_regMax_iff reg).1 h)]
    exact ended_of_bus ((regRead_within reg s).map _) Set.Subset.rfl trivial
  | xmInit => exact ended_of_absent (xmInit_within s).noResult Set.Subset.rfl fun t ht => .inl ⟨rfl, ht⟩
  | xmWriteB v => exact ended_of_bus (ifPresent_within (writeB_within v s)) Set.Subset.rfl trivial
  | xmSetRed on =>
    obtain ⟨v, rfl⟩ := exists_boolByte h
    rw [exec_xmSetRed]
    exact hbus (setRed_within v s) trivial
  | xmSetGreen on =>
    obtain ⟨v, rfl⟩ := exists_boolByte h
    rw [exec_xmSetGreen]
    exact hbus (setGreen_within v s) trivial
  | xmSetBacklight on =>
    obtain ⟨v, rfl⟩ := exists_boolByte h
    rw [exec_xmSetBacklight]
    exact hbus (setBacklight_within v s) trivial
  | xmAckInt =>
    cases hx : s.xmPresent with
    | false => exact ⟨_, (buttonReads_absent hx).1, .failed .hardwareAbsent s (Evolves.refl s)
        (.inr (.inr (.inl ⟨.inl rfl, hx⟩)))⟩
    | true => exact ended_of_bus ((ackInt_within hx).map _) Set.Subset.rfl trivial
  | xmReadButtons =>
    cases hx : s.xmPresent with
    | false => exact ⟨_, (buttonReads_absent hx).2, .failed .hardwareAbsent s (Evolves.refl s)
        (.inr (.inr (.inl ⟨.inr rfl, hx⟩)))⟩
    | true => exact ended_of_bus ((readButtons_within hx).map _) Set.Subset.rfl trivial
  | xmTestButton mask id =>
    have hid : ¬ id > 5 := mt BitVec.lt_def.1 h
    rw [exec_xmTestButton, if_neg hid]
    exact ⟨_, finish_ok _ s, .answered _ s (Evolves.refl s)⟩
  -- U3
  | lcdSend b rs =>
    obtain ⟨v, rfl⟩ := exists_boolByte h
    rw [exec_lcdSend]
    exact ended_of_bus (ifPresent_within (send_within b v s)) Set.Subset.rfl trivial
  | lcdData b => exact ended_of_bus (ifPresent_within (send_within b true s)) Set.Subset.rfl trivial
  | lcdCommand b => exact hbus (command_within b s) trivial
  | lcdClear => exact hbus (command_within cmdClear s) trivial
  | lcdHome => exact hbus (command_within cmdHome s) trivial
  | lcdScrollLeft => exact hbus (command_within cmdScrollLeft s) trivial
  | lcdScrollRight => exact hbus (command_within cmdScrollRight s) trivial
  | lcdInit => exact ended_of_absent (lcdInit_within s).noResult Set.Subset.rfl fun t ht => .inr (.inl ⟨rfl, ht⟩)
  | lcdReset => exact hbus (lcdReset_within s) trivial
  | lcdSetDisplay on =>
    obtain ⟨v, rfl⟩ := exists_boolByte h
    rw [exec_lcdSetDisplay]
    exact hbus (setDctrl_within _ v s) trivial
  | lcdSetCursor on =>
    obtain ⟨v, rfl⟩ := exists_boolByte h
    rw [exec_lcdSetCursor]
    exact hbus (setDctrl_within _ v s) trivial
  | lcdSetBlink on =>
    obtain ⟨v, rfl⟩ := exists_boolByte h
    rw [exec_lcdSetBlink]
    exact hbus (setDctrl_within _ v s) trivial
  | lcdLeftToRight => exact hbus (setEntry_within _ true s) trivial
  | lcdRightToLeft => exact hbus (setEntry_within _ false s) trivial
  | lcdSetAutoscroll on =>
    obtain ⟨v, rfl⟩ := exists_boolByte h
    rw [exec_lcdSetAutoscroll]
    exact hbus (setEntry_within _ v s) trivial
  | lcdSetPos col row => exact hbus (setPos_within h) trivial
  | lcdMessage text => exact hbus (message_within text s) trivial
  | lcdCreateChar slot bitmap => exact hbus (createChar_within h) trivial
  -- U4
  | schedStart =>
    exact ended_of_absent (schedStart_within (not_not.1 h)).noResult Set.Subset.rfl
      fun t ht => .inr (.inr (.inr ⟨.inl rfl, ht⟩))
  | schedWait =>
    simp only [exec, execSchedWait, if_pos (not_not.1 h)]
    exact ⟨_, rfl, ended_of_pass (startWait_ends .wait s) (.inl rfl)⟩
  | schedIterate =>
    simp only [exec, execSchedIterate, if_pos (not_not.1 h)]
    exact ⟨_, rfl, ended_of_pass (startPass_ends (w := .iterate) rfl s) (.inr (.inl rfl))⟩
  | schedRestartDisplay =>
    exact ⟨_, exec_schedRestartDisplay (not_not.1 h),
      .answered [] _ ((Move.restartDisplay s).evolves (Set.mem_singleton _))⟩
  | schedWake => exact ⟨_, exec_schedWake s, .answered [] _ ((Move.setWake s).evolves (Set.mem_singleton _))⟩
  | schedStop => exact ⟨_, exec_schedStop s, .answered [] _ ((Move.setStop s).evolves (Set.mem_singleton _))⟩
  | schedSnapshot => exact ⟨_, exec_schedSnapshot s, .answered _ s (Evolves.refl s)⟩
  | schedRun => exact exec_schedRun_ended h

/-- How every request ends. -/
theorem exec_cases (i : Instr) (s : State) :
    (configurationCause i s ∧ exec i s = .next (s.respond [2])) ∨
      (¬ configurationCause i s ∧ ∃ t, exec i s = .next t ∧ Ended i s t) := by
  by_cases h : configurationCause i s
  · exact .inl ⟨h, exec_refused h⟩
  · exact .inr ⟨h, exec_ended h⟩

end

end Sys2Proof.Machine

/-! # What the environment and REQ do

The flags they set are never cleared by them, and the responses they add are REQ's. With O20. -/

namespace Sys2Proof.Machine

section

variable {s : State}

/-! ## Flags -/

theorem serveReq_wake (bs : List Byte) (s : State) (h : s.wake = true) : (serveReq bs s).wake = true := by
  induction bs generalizing s with
  | nil => exact h
  | cons b bs ih =>
    simp only [serveReq]
    split_ifs
    · exact ih _ rfl
    · exact ih _ h
    · exact ih _ h
    · exact h

theorem serveReq_irqPend (bs : List Byte) (s : State) : (serveReq bs s).irqPend = s.irqPend := by
  induction bs generalizing s with
  | nil => rfl
  | cons b bs ih =>
    simp only [serveReq]
    split_ifs
    · exact ih _
    · exact ih _
    · exact ih _
    · rfl

theorem act_wake (a : EnvAct) (s : State) : (s.act a).wake = s.wake := by
  match a with
  | .line _ => rfl
  | .request .loop _ => rfl
  | .request .req _ => rfl

theorem acts_wake (acts : List EnvAct) (s : State) : (acts.foldl State.act s).wake = s.wake := by
  induction acts generalizing s with
  | nil => rfl
  | cons a as ih => simp only [List.foldl_cons, ih, act_wake]

theorem act_irqPend (a : EnvAct) (h : s.irqPend = true) : (s.act a).irqPend = true := by
  match a with
  | .line _ => simp [State.act, State.senseLine, h]
  | .request .loop _ => exact h
  | .request .req _ => exact h

theorem acts_irqPend (acts : List EnvAct) (h : s.irqPend = true) : (acts.foldl State.act s).irqPend = true := by
  induction acts generalizing s with
  | nil => exact h
  | cons a as ih => exact ih (act_irqPend a h)

/-- The environment and REQ set flags and clear none. -/
theorem surround_flags (ms : Nat) (acts : List EnvAct) (s : State) :
    (s.wake = true → (s.surround ms acts).wake = true) ∧ (s.stop = true → (s.surround ms acts).stop = true) ∧
      (s.irqPend = true → (s.surround ms acts).irqPend = true) := by
  refine ⟨fun h => ?_, surround_stop ms acts s, fun h => ?_⟩
  · exact serveReq_wake _ _ ((acts_wake acts _).trans h)
  · simp only [State.surround, serveReq_irqPend]
    exact acts_irqPend acts h

theorem dropDraw_flags (s : State) :
    s.dropDraw.wake = s.wake ∧ s.dropDraw.stop = s.stop ∧ s.dropDraw.irqPend = s.irqPend := by
  unfold State.dropDraw
  split <;> exact ⟨rfl, rfl, rfl⟩

/-- The same for a step of the environment with its draw. -/
theorem drawn_flags (ms : Nat) (acts : List EnvAct) (s : State) :
    (s.wake = true → (s.dropDraw.surround ms acts).wake = true) ∧
      (s.stop = true → (s.dropDraw.surround ms acts).stop = true) ∧
      (s.irqPend = true → (s.dropDraw.surround ms acts).irqPend = true) := by
  obtain ⟨hwake, hstop, hirq⟩ := dropDraw_flags s
  have hflags := surround_flags ms acts s.dropDraw
  rwa [hwake, hstop, hirq] at hflags

/-! ## Responses -/

/-- The responses of `t` are those of `s` and then answers to REQ, each with status 0. -/
def State.servedTo (s t : State) : Prop :=
  ∃ served, t.responses = s.responses ++ served ∧ ∀ r ∈ served, r.1 = .req ∧ r.2.head? = some 0

theorem servedTo_of_eq {t : State} (h : t.responses = s.responses) : s.servedTo t :=
  ⟨[], by rw [h, List.append_nil], by simp⟩

theorem State.servedTo.trans {t u : State} (h : s.servedTo t) (h' : t.servedTo u) : s.servedTo u := by
  obtain ⟨served, hserved, hreq⟩ := h
  obtain ⟨served', hserved', hreq'⟩ := h'
  refine ⟨served ++ served', by rw [hserved', hserved, List.append_assoc], fun r hr => ?_⟩
  exact (List.mem_append.1 hr).elim (hreq r) (hreq' r)

theorem serveReq_servedTo (bs : List Byte) (s : State) : s.servedTo (serveReq bs s) := by
  induction bs generalizing s with
  | nil => exact servedTo_of_eq rfl
  | cons b bs ih =>
    have hone {t : State} {bytes : List Byte} (ht : t.responses = s.responses ++ [(.req, 0 :: bytes)]) :
        s.servedTo t := ⟨_, ht, by simp⟩
    simp only [serveReq]
    split_ifs
    · exact State.servedTo.trans (hone rfl) (ih _)
    · exact State.servedTo.trans (hone rfl) (ih _)
    · exact State.servedTo.trans (hone rfl) (ih _)
    · exact servedTo_of_eq rfl

theorem act_responses (a : EnvAct) (s : State) : (s.act a).responses = s.responses := by
  match a with
  | .line _ => rfl
  | .request .loop _ => rfl
  | .request .req _ => rfl

theorem acts_responses (acts : List EnvAct) (s : State) : (acts.foldl State.act s).responses = s.responses := by
  induction acts generalizing s with
  | nil => rfl
  | cons a as ih => simp only [List.foldl_cons, ih, act_responses]

theorem surround_servedTo (ms : Nat) (acts : List EnvAct) (s : State) : s.servedTo (s.surround ms acts) :=
  (servedTo_of_eq (acts_responses acts { s with now := s.now + ms })).trans (serveReq_servedTo _ _)

theorem dropDraw_responses (s : State) : s.dropDraw.responses = s.responses := by
  unfold State.dropDraw
  split <;> rfl

/-! ## What they leave unchanged -/

theorem serveReq_eq (bs : List Byte) (s : State) :
    serveReq bs s =
      { s with wake := (serveReq bs s).wake, stop := (serveReq bs s).stop,
               reqPort := (serveReq bs s).reqPort, responses := (serveReq bs s).responses } := by
  induction bs generalizing s with
  | nil => rfl
  | cons b bs ih =>
    simp only [serveReq]
    split_ifs
    · exact ih { s.setWake with responses := s.responses ++ [(.req, [okCode])] }
    · exact ih { s.setStop with responses := s.responses ++ [(.req, [okCode])] }
    · exact ih { s with responses := s.responses ++ [(.req, okCode :: snapshotBytes s.pub)] }
    · rfl

/-- `surround` uses no draw itself and advances `NOW` by its time. -/
theorem surround_frame (ms : Nat) (acts : List EnvAct) (s : State) :
    s.surround ms acts = { s with
      now := s.now + ms, wake := (s.surround ms acts).wake, stop := (s.surround ms acts).stop,
      irqPend := (s.surround ms acts).irqPend, intPrev := (s.surround ms acts).intPrev,
      hostPort := (s.surround ms acts).hostPort, reqPort := (s.surround ms acts).reqPort,
      responses := (s.surround ms acts).responses } := by
  obtain ⟨henv, hdrawn⟩ := surround_draws ms acts s
  have hnow := surround_now ms acts s
  have hframe := surround_eq ms acts s
  generalize s.surround ms acts = t at *
  rw [State.envFrom, henv, hdrawn, hnow] at hframe
  exact hframe

/-- What one of REQ's requests does on its own, its agent noted. -/
theorem exec_req {i : Instr} {t : State} (hi : i = .schedWake ∨ i = .schedStop ∨ i = .schedSnapshot)
    (h : exec i s = .next t) :
    t = { s with wake := t.wake, stop := t.stop, responses := t.responses } ∧
      (s.wake = true → t.wake = true) ∧ (s.stop = true → t.stop = true) := by
  obtain rfl | rfl | rfl := hi
  · rw [exec_schedWake] at h
    cases h
    exact ⟨rfl, fun _ => rfl, id⟩
  · rw [exec_schedStop] at h
    cases h
    exact ⟨rfl, id, fun _ => rfl⟩
  · rw [exec_schedSnapshot] at h
    cases h
    exact ⟨rfl, id, id⟩

end

/-! ## What a step takes up (43_scheduler.md R260) -/

/-- With bytes at REQ's port a step that is not refused runs one of REQ's requests. -/
theorem step_req {s t : State} (hport : s.reqPort ≠ []) (h : step s = .next t) :
    ∃ i rest, i.reqMayIssue = true ∧ exec i { s with reqPort := rest, agent := .req } = .next t := by
  obtain ⟨op, bs, hcons⟩ := List.exists_cons_of_ne_nil hport
  have hfetch : fetch s = fetchReq s := by simp only [fetch, hcons]
  simp only [step, hfetch, fetchReq] at h
  cases hdecode : decode s.reqPort with
  | error e => simp [hdecode] at h
  | ok p =>
    obtain ⟨i, rest⟩ := p
    simp only [hdecode] at h
    split_ifs at h with hi
    exact ⟨i, rest, hi, h⟩

end Sys2Proof.Machine

section

open Sys2Proof Sys2Proof.Machine Sys2Proof.Laws

/-- Settles O20: REQ's three requests are one update each, `serveReq` repeats them, and the steps of the environment
are `surround` with a draw. -/
theorem requestServerTouchesOnlyItsFlags : Obligations.RequestServerTouchesOnlyItsFlags := by
  unfold Obligations.RequestServerTouchesOnlyItsFlags
  refine ⟨fun s t hport hstep => ?own, fun i rest s t hi hexec => ?inside, fun s bytes => serveReq_eq bytes s,
    fun s ms acts => ⟨surround_frame ms acts s, surround_flags ms acts s⟩, fun s t ht => ?steps⟩
  case own =>
    obtain ⟨i, rest, hi, hexec⟩ := step_req hport hstep
    obtain ⟨hframe, hflags⟩ := exec_req ((reqMayIssue_iff i).1 hi) hexec
    have hreq : t.reqPort = rest := by rw [hframe]
    exact ⟨by rw [hreq]; exact hframe, hflags⟩
  case inside =>
    obtain rfl | rfl | rfl := hi
    · rw [exec_schedWake] at hexec
      cases hexec
      rfl
    · rw [exec_schedStop] at hexec
      cases hexec
      rfl
    · rw [exec_schedSnapshot] at hexec
      cases hexec
      rfl
  case steps =>
    obtain rfl | rfl | rfl := ht
    · exact ⟨elapse_eq s, drawn_flags _ _ s⟩
    · exact ⟨interlude_eq s, drawn_flags _ _ s⟩
    · exact ⟨settle_eq s, drawn_flags _ _ s⟩

/-- Settles O43: the settle delay is a step of the environment of 15 ms and the draw's time. -/
theorem settleDelay : Obligations.SettleDelay := by
  unfold Obligations.SettleDelay
  intro s
  refine ⟨?_, settle_eq s⟩
  rw [settle_now]
  omega

end

/-! # The laws of every step

Each is a law of the single moves, and so of everything `exec_cases` says a request can do. -/

namespace Sys2Proof.Machine

section

variable {e : Element} {W : Set Element} {s t : State}

/-! ## Streams, responses and time (10_state.md R31, R45) -/

theorem Move.streams (h : Move e s t) : s.trace <+: t.trace ∧ s.log <+: t.log ∧ s.diag <+: t.diag := by
  cases h with
  | record | register => exact ⟨List.prefix_append _ _, List.prefix_rfl, List.prefix_rfl⟩
  | log => exact ⟨List.prefix_rfl, List.prefix_append _ _, List.prefix_rfl⟩
  | diag => exact ⟨List.prefix_rfl, List.prefix_rfl, List.prefix_append _ _⟩
  | _ => exact ⟨List.prefix_rfl, List.prefix_rfl, List.prefix_rfl⟩

theorem Evolves.streams (h : Evolves W s t) : s.trace <+: t.trace ∧ s.log <+: t.log ∧ s.diag <+: t.diag := by
  refine Evolves.induct (P := fun a b => a.trace <+: b.trace ∧ a.log <+: b.log ∧ a.diag <+: b.diag) h
    (fun _ => ⟨List.prefix_rfl, List.prefix_rfl, List.prefix_rfl⟩) ?_ fun _ hm => hm.streams
  rintro a b c ⟨ht, hl, hd⟩ ⟨ht', hl', hd'⟩
  exact ⟨ht.trans ht', hl.trans hl', hd.trans hd'⟩

theorem Move.now_le (h : Move e s t) : s.now ≤ t.now := by
  cases h with
  | env ms =>
    have hnow : (s.dropDraw.surround ms s.nextDraw.acts).now = s.now + ms := by rw [surround_now, dropDraw_now]
    exact (Nat.le_add_right s.now ms).trans hnow.ge
  | _ => exact le_rfl

theorem Evolves.now_le (h : Evolves W s t) : s.now ≤ t.now :=
  Evolves.induct (P := fun a b => a.now ≤ b.now) h (fun _ => le_rfl) le_trans fun _ hm => hm.now_le

theorem Move.servedTo (h : Move e s t) : s.servedTo t := by
  cases h with
  | env ms => exact (servedTo_of_eq (dropDraw_responses s)).trans (surround_servedTo ms _ _)
  | _ => exact servedTo_of_eq rfl

theorem Evolves.servedTo (h : Evolves W s t) : s.servedTo t :=
  Evolves.induct (P := State.servedTo) h (fun _ => servedTo_of_eq rfl) (fun hab hbc => hab.trans hbc)
    fun _ hm => hm.servedTo

/-! ## Flags (R34 to R36, R43) -/

theorem Move.stop_of_stop (h : Move e s t) (hstop : s.stop = true) : t.stop = true := by
  cases h with
  | env ms => exact (drawn_flags ms _ s).2.1 hstop
  | setStop => rfl
  | _ => exact hstop

theorem Evolves.stop_of_stop (h : Evolves W s t) : s.stop = true → t.stop = true :=
  Evolves.induct (P := fun a b => a.stop = true → b.stop = true) h (fun _ => id) (fun hab hbc => hbc ∘ hab)
    fun _ hm => hm.stop_of_stop

theorem Move.err_of_err (h : Move e s t) (herr : s.err = true) : t.err = true := by
  cases h with
  | err => rfl
  | _ => exact herr

theorem Evolves.err_of_err (h : Evolves W s t) : s.err = true → t.err = true :=
  Evolves.induct (P := fun a b => a.err = true → b.err = true) h (fun _ => id) (fun hab hbc => hbc ∘ hab)
    fun _ hm => hm.err_of_err

theorem Move.wake_of_wake (h : Move e s t) (he : e ≠ .drainedWake) (hwake : s.wake = true) : t.wake = true := by
  cases h with
  | env ms => exact (drawn_flags ms _ s).1 hwake
  | drainedWake => exact absurd rfl he
  | setWake => rfl
  | _ => exact hwake

theorem Evolves.wake_of_wake (h : Evolves W s t) (hW : .drainedWake ∉ W) : s.wake = true → t.wake = true :=
  Evolves.induct (P := fun a b => a.wake = true → b.wake = true) h (fun _ => id) (fun hab hbc => hbc ∘ hab)
    fun he hm => hm.wake_of_wake (ne_of_mem_of_not_mem he hW)

theorem Move.irqPend_of_irqPend (h : Move e s t) (he : e ≠ .drainedIrq) (hirq : s.irqPend = true) :
    t.irqPend = true := by
  cases h with
  | env ms => exact (drawn_flags ms _ s).2.2 hirq
  | drainedIrq => exact absurd rfl he
  | _ => exact hirq

theorem Evolves.irqPend_of_irqPend (h : Evolves W s t) (hW : .drainedIrq ∉ W) :
    s.irqPend = true → t.irqPend = true :=
  Evolves.induct (P := fun a b => a.irqPend = true → b.irqPend = true) h (fun _ => id)
    (fun hab hbc => hbc ∘ hab) fun he hm => hm.irqPend_of_irqPend (ne_of_mem_of_not_mem he hW)

/-! ## Without a draw the environment changes nothing -/

/-- Draws are only ever used up. -/
def State.usesDraws (s t : State) : Prop := t.env.length ≤ s.env.length ∧ s.drawn ≤ t.drawn

/-- At least one draw was used. -/
def State.usesDraw (s t : State) : Prop := t.env.length < s.env.length ∨ s.drawn < t.drawn

theorem usesDraw_env (ms : Nat) (s : State) :
    s.usesDraws (s.dropDraw.surround ms s.nextDraw.acts) ∧ s.usesDraw (s.dropDraw.surround ms s.nextDraw.acts) := by
  obtain ⟨henv, hdrawn⟩ := surround_draws ms s.nextDraw.acts s.dropDraw
  rw [State.usesDraws, State.usesDraw, henv, hdrawn, State.dropDraw]
  cases hdraws : s.env with
  | nil => simp
  | cons d ds => simp

/-- What the environment and REQ's flags show of the moves that use no draw. -/
def State.quietTo (W : Set Element) (s t : State) : Prop :=
  t.now = s.now ∧ t.intPrev = s.intPrev ∧ (t.irqPend = true → s.irqPend = true) ∧
    (t.stop = s.stop ∨ .setStop ∈ W) ∧ ((t.wake = true → s.wake = true) ∨ .setWake ∈ W)

theorem Move.quietTo (h : Move e s t) (hW : e ∈ W) (he : e ≠ .env) : s.quietTo W t := by
  cases h with
  | env => exact absurd rfl he
  | drainedIrq => exact ⟨rfl, rfl, fun h => (nomatch h), .inl rfl, .inl id⟩
  | drainedWake => exact ⟨rfl, rfl, id, .inl rfl, .inl fun h => (nomatch h)⟩
  | setWake => exact ⟨rfl, rfl, id, .inl rfl, .inr hW⟩
  | setStop => exact ⟨rfl, rfl, id, .inr hW, .inl id⟩
  | _ => exact ⟨rfl, rfl, id, .inl rfl, .inl id⟩

theorem State.quietTo.trans {u : State} (h : s.quietTo W t) (h' : t.quietTo W u) : s.quietTo W u := by
  obtain ⟨hnow, hprev, hirq, hstop, hwake⟩ := h
  obtain ⟨hnow', hprev', hirq', hstop', hwake'⟩ := h'
  refine ⟨hnow'.trans hnow, hprev'.trans hprev, hirq ∘ hirq', ?_, ?_⟩
  · exact hstop.elim (fun h => hstop'.imp_left (·.trans h)) .inr
  · exact hwake.elim (fun h => hwake'.imp_left (h ∘ ·)) .inr

/-- Either no draw was used, and the flags show it, or one is missing. -/
theorem Evolves.quiet_or_usesDraw (h : Evolves W s t) :
    s.usesDraws t ∧ (s.quietTo W t ∨ s.usesDraw t) := by
  refine Evolves.induct (P := fun a b => a.usesDraws b ∧ (a.quietTo W b ∨ a.usesDraw b)) h
    (fun _ => ⟨⟨le_rfl, le_rfl⟩, .inl ⟨rfl, rfl, id, .inl rfl, .inl id⟩⟩) ?_ fun he hm => ?_
  · rintro a b c ⟨⟨henv, hdrawn⟩, hab⟩ ⟨⟨henv', hdrawn'⟩, hbc⟩
    refine ⟨⟨henv'.trans henv, hdrawn.trans hdrawn'⟩, ?_⟩
    rcases hab with hab | hab
    · rcases hbc with hbc | hbc
      · exact .inl (hab.trans hbc)
      · exact .inr (hbc.imp (lt_of_lt_of_le · henv) (lt_of_le_of_lt hdrawn ·))
    · exact .inr (hab.imp (lt_of_le_of_lt henv' ·) (lt_of_lt_of_le · hdrawn'))
  · rename_i e a b
    by_cases henv : e = .env
    · subst henv
      cases hm with
      | env ms =>
        obtain ⟨hused, hone⟩ := usesDraw_env ms a
        exact ⟨hused, .inr hone⟩
    · obtain ⟨hlist, hdrawn⟩ := hm.keeps_draws henv
      exact ⟨⟨(congrArg List.length hlist).le, hdrawn.ge⟩, .inl (hm.quietTo he henv)⟩

theorem Evolves.quiet (h : Evolves W s t) (henv : t.env = s.env) (hdrawn : t.drawn = s.drawn) : s.quietTo W t := by
  refine h.quiet_or_usesDraw.2.resolve_right ?_
  rw [State.usesDraw, henv, hdrawn]
  simp

/-! ## The law of the caches (40_expander.md R144) -/

theorem lastWritten_wroteRecord (regs : List Byte) (d reg v : Byte) (trace : List BusRecord) :
    lastWritten regs d (trace ++ [wroteRecord reg v]) = if reg ∈ regs then v else lastWritten regs d trace := by
  simp [lastWritten, wroteRecord, expAddr]

theorem lastWritten_other {ops : List BusOp} {outcome : Option (List (List Byte))}
    (h : ∀ a reg w, ops = [.writeBytes a [reg, w]] → outcome = none) (regs : List Byte) (d : Byte)
    (trace : List BusRecord) : lastWritten regs d (trace ++ [{ ops := ops, outcome := outcome }]) =
      lastWritten regs d trace := by
  simp only [lastWritten, List.foldl_append, List.foldl_cons, List.foldl_nil]
  split
  next heq =>
    cases heq
    cases h _ _ _ rfl
  next => rfl

/-- A successful register write is the last one to its register, and to no other. -/
theorem cacheLaw_regWritten (reg v : Byte) (h : s.CacheLaw) : (s.regWritten (reg, v)).CacheLaw := by
  have hlast (regs : List Byte) (d : Byte) : lastWritten regs d (s.regWritten (reg, v)).trace =
      if reg ∈ regs then v else lastWritten regs d s.trace := lastWritten_wroteRecord regs d reg v s.trace
  have hshadow : (s.regWritten (reg, v)).shadow = s.shadow.write reg v := rfl
  rw [Shadow.write_eq] at hshadow
  constructor <;> rw [hlast]
  case cacheB => rw [← h.cacheB]; simp [State.regWritten]
  case cacheA => rw [← h.cacheA]; simp [State.regWritten]
  case iodira => rw [hshadow, ← h.iodira]; simp [regIodira]
  case iodirb => rw [hshadow, ← h.iodirb]; simp [regIodirb]
  case ipola => rw [hshadow, ← h.ipola]; simp [regIpola]
  case ipolb => rw [hshadow, ← h.ipolb]; simp [regIpolb]
  case gpintena => rw [hshadow, ← h.gpintena]; simp [regGpintena]
  case gpintenb => rw [hshadow, ← h.gpintenb]; simp [regGpintenb]
  case gppua => rw [hshadow, ← h.gppua]; simp [regGppua]
  case gppub => rw [hshadow, ← h.gppub]; simp [regGppub]

/-- The law reads the copies and the trace alone. -/
theorem cacheLaw_congr (hshadow : t.shadow = s.shadow) (hA : t.cacheA = s.cacheA) (hB : t.cacheB = s.cacheB)
    (htrace : ∀ regs d, lastWritten regs d t.trace = lastWritten regs d s.trace) (h : s.CacheLaw) : t.CacheLaw := by
  constructor <;> rw [htrace]
  case cacheB => rw [hB, h.cacheB]
  case cacheA => rw [hA, h.cacheA]
  case iodira => rw [hshadow, h.iodira]
  case iodirb => rw [hshadow, h.iodirb]
  case ipola => rw [hshadow, h.ipola]
  case ipolb => rw [hshadow, h.ipolb]
  case gpintena => rw [hshadow, h.gpintena]
  case gpintenb => rw [hshadow, h.gpintenb]
  case gppua => rw [hshadow, h.gppua]
  case gppub => rw [hshadow, h.gppub]

theorem Move.cacheLaw (h : Move e s t) (hs : s.CacheLaw) : t.CacheLaw := by
  cases h with
  | record ops outcome _ hops =>
    exact cacheLaw_congr (s := s) rfl rfl rfl (fun regs d => lastWritten_other hops regs d _) hs
  | register reg v => exact cacheLaw_regWritten reg v hs
  | _ => exact cacheLaw_congr (s := s) rfl rfl rfl (fun _ _ => rfl) hs

theorem Evolves.cacheLaw (h : Evolves W s t) : s.CacheLaw → t.CacheLaw :=
  Evolves.induct (P := fun a b => a.CacheLaw → b.CacheLaw) h (fun _ => id) (fun hab hbc => hbc ∘ hab)
    fun _ hm => hm.cacheLaw

/-! ## The part of the invariant that every single write keeps -/

/-- The clauses of the invariant on times, ranges and parameters. -/
structure State.Timely (s : State) : Prop where
  periods : 0 < s.params.logPeriod ∧ 0 < s.params.displayPeriod ∧ 0 < s.params.waitTimeout
  waited : s.waitStart ≤ s.now
  stamped : ∀ t, s.ts = some t → t ≤ s.now
  ranges : (∀ t, s.temp0 = some t → tempInRange t) ∧ (∀ t, s.temp1 = some t → tempInRange t)
  logOrdered : (s.log.map (·.time)).Pairwise (· ≤ ·) ∧ ∀ r ∈ s.log, r.time ≤ s.now
  diagOrdered : (s.diag.map (·.time)).Pairwise (· ≤ ·) ∧ ∀ r ∈ s.diag, r.time ≤ s.now
  deadlines : s.logDl ≤ s.now + s.params.logPeriod ∧ s.dispDl ≤ s.now + s.params.displayPeriod

/-- The other clauses: what is in progress and what is read, by phase. They hold between two requests. -/
structure State.Phased (s : State) : Prop where
  busy : s.loop ≠ .idle → s.phase = .running
  unread : s.phase = .reset → s.temp0 = none ∧ s.temp1 = none ∧ s.ts = none ∧ s.pub = Snapshot.empty
  published : s.phase = .running ∨ s.phase = .stopped →
    s.temp0.isSome = true ∧ s.temp1.isSome = true ∧ s.ts.isSome = true ∧
      s.pub = { temp0 := s.temp0, temp1 := s.temp1, ts := s.ts }
  unpublished : s.phase = .fatal → s.ts = none ∧ s.pub = Snapshot.empty

theorem inv_iff : s.Inv ↔ s.Timely ∧ s.Phased := by
  constructor
  · intro h
    exact ⟨⟨h.periods, h.waited, h.stamped, h.ranges, h.logOrdered, h.diagOrdered, h.deadlines⟩,
      ⟨h.busy, h.unread, h.published, h.unpublished⟩⟩
  · rintro ⟨ht, hp⟩
    exact ⟨ht.periods, hp.busy, hp.unread, hp.published, hp.unpublished, ht.waited, ht.stamped, ht.ranges,
      ht.logOrdered, ht.diagOrdered, ht.deadlines⟩

/-- Records in the order of their times stay so when one of now is added. -/
theorem ordered_append {ρ : Type} {time : ρ → Nat} {rs : List ρ} {now : Nat} {r : ρ}
    (h : (rs.map time).Pairwise (· ≤ ·) ∧ ∀ x ∈ rs, time x ≤ now) (hr : time r = now) :
    ((rs ++ [r]).map time).Pairwise (· ≤ ·) ∧ ∀ x ∈ rs ++ [r], time x ≤ now := by
  obtain ⟨hpair, hpast⟩ := h
  refine ⟨?_, ?_⟩
  · rw [List.map_append, List.pairwise_append]
    refine ⟨hpair, by simp, ?_⟩
    simpa [hr] using hpast
  · simpa [or_imp, forall_and, hr] using hpast

theorem Move.timely (h : Move e s t) (hs : s.Timely) : t.Timely := by
  obtain ⟨hperiods, hwaited, hstamped, hranges, hlog, hdiag, hdeadlines⟩ := hs
  cases h with
  | env ms =>
    have hnow := (Move.env ms s).now_le
    refine ⟨hperiods, hwaited.trans hnow, fun t ht => (hstamped t ht).trans hnow, hranges,
      ⟨hlog.1, fun r hr => (hlog.2 r hr).trans hnow⟩, ⟨hdiag.1, fun r hr => (hdiag.2 r hr).trans hnow⟩,
      hdeadlines.1.trans (Nat.add_le_add_right hnow _), hdeadlines.2.trans (Nat.add_le_add_right hnow _)⟩
  | log => exact ⟨hperiods, hwaited, hstamped, hranges, ordered_append hlog rfl, hdiag, hdeadlines⟩
  | diag => exact ⟨hperiods, hwaited, hstamped, hranges, hlog, ordered_append hdiag rfl, hdeadlines⟩
  | temp0 v _ hv =>
    exact ⟨hperiods, hwaited, hstamped, ⟨fun t ht => Option.some.inj ht ▸ hv, hranges.2⟩, hlog, hdiag, hdeadlines⟩
  | temp1 v _ hv =>
    exact ⟨hperiods, hwaited, hstamped, ⟨hranges.1, fun t ht => Option.some.inj ht ▸ hv⟩, hlog, hdiag, hdeadlines⟩
  | stamp =>
    exact ⟨hperiods, hwaited, fun t ht => (Option.some.inj ht).ge, hranges, hlog, hdiag, hdeadlines⟩
  | logTick _ hdue =>
    exact ⟨hperiods, hwaited, hstamped, hranges, hlog, hdiag,
      (advanceDeadline_bounds hdue hperiods.1).2.1, hdeadlines.2⟩
  | armLog => exact ⟨hperiods, hwaited, hstamped, hranges, hlog, hdiag, le_rfl, hdeadlines.2⟩
  | displayTick _ hdue =>
    exact ⟨hperiods, hwaited, hstamped, hranges, hlog, hdiag, hdeadlines.1,
      (advanceDeadline_bounds hdue hperiods.2.1).2.1⟩
  | restartDisplay =>
    exact ⟨hperiods, hwaited, hstamped, hranges, hlog, hdiag, hdeadlines.1, Nat.le_add_right _ _⟩
  | waitStart => exact ⟨hperiods, le_rfl, hstamped, hranges, hlog, hdiag, hdeadlines⟩
  | _ => exact ⟨hperiods, hwaited, hstamped, hranges, hlog, hdiag, hdeadlines⟩

theorem Evolves.timely (h : Evolves W s t) : s.Timely → t.Timely :=
  Evolves.induct (P := fun a b => a.Timely → b.Timely) h (fun _ => id) (fun hab hbc => hbc ∘ hab)
    fun _ hm => hm.timely

end

end Sys2Proof.Machine

/-! # The writers column and the error statuses, request by request (10_state.md R21, 60_exceptions.md R310 to R315)

With O14 to O17. -/

namespace Sys2Proof.Machine

section

/-! ## The rows as lists of elements -/

variable {e : Element}

@[simp] theorem mem_busOnly : e ∈ busOnly ↔ e = .env ∨ e = .trace := Iff.rfl

@[simp] theorem mem_writesRegister {reg : Byte} :
    e ∈ writesRegister reg ↔ e = .env ∨ e = .trace ∨ e = .register reg := Iff.rfl

@[simp] theorem mem_writesBankB : e ∈ writesBankB ↔ e ∈ writesRegister regGpiob := Iff.rfl

@[simp] theorem mem_writesDctrl : e ∈ writesDctrl ↔ e = .dctrl ∨ e ∈ writesBankB := Iff.rfl

@[simp] theorem mem_writesEntry : e ∈ writesEntry ↔ e = .entry ∨ e ∈ writesBankB := Iff.rfl

@[simp] theorem mem_resetsDisplay : e ∈ resetsDisplay ↔ e = .dctrl ∨ e = .entry ∨ e ∈ writesBankB := Iff.rfl

@[simp] theorem mem_setsDisplay : e ∈ setsDisplay ↔ e = .lcdPresent ∨ e ∈ resetsDisplay := Iff.rfl

@[simp] theorem mem_setsExpander : e ∈ setsExpander ↔
    e = .env ∨ e = .trace ∨ e = .xmPresent ∨
      ∃ reg ∈ [regIodira, regIodirb, regIpola, regGppua, regGpintena, regIntcona], e = .register reg := by
  simp [setsExpander]

@[simp] theorem mem_writesOfWait : e ∈ writesOfWait ↔
    e = .logDl ∨ e = .dispDl ∨ e = .drainedIrq ∨ e = .drainedWake ∨ e = .env ∨ e = .waitStart ∨ e = .loop := by
  simp only [writesOfWait, drains, Set.mem_union, Set.mem_insert_iff, Set.mem_singleton_iff, or_assoc]

@[simp] theorem mem_writesOfReads :
    e ∈ writesOfReads ↔ e ∈ writesBankB ∨ e = .diag ∨ e = .err ∨ e = .readings := Iff.rfl

@[simp] theorem mem_writesOfActions :
    e ∈ writesOfActions ↔ e ∈ writesBankB ∨ e = .log ∨ e = .diag ∨ e = .fmt ∨ e = .dispDl := Iff.rfl

@[simp] theorem mem_writesOfPass :
    e ∈ writesOfPass ↔ e ∈ writesOfWait ∨ e ∈ writesOfReads ∨ e ∈ writesOfActions ∨ e = .phase := by
  simp only [writesOfPass, Set.mem_union, Set.mem_singleton_iff, or_assoc]

@[simp] theorem mem_writesOfStart : e ∈ writesOfStart ↔
    e ∈ setsExpander ∨ e ∈ setsDisplay ∨ e = .diag ∨ e = .readings ∨ e = .phase ∨ e = .logDl ∨ e = .dispDl := by
  simp only [writesOfStart, Set.mem_union, Set.mem_insert_iff, Set.mem_singleton_iff, or_assoc]

/-! ## Which requests write an element -/

variable {i : Instr}

/-- A request's unit is in bits 7 to 5 of its row's op code. -/
theorem isLcd_iff (i : Instr) : isLcd i ↔ (Laws.tableRow i).1 >>> 5 = 0x02 := by
  obtain ⟨operands, h⟩ := Laws.encode_eq_cons i
  rw [isLcd, h, List.headD_cons]

theorem writers_shadow (h : ∃ e ∈ writesOf i, ∃ reg, (reg ≠ regGpioa ∧ reg ≠ regGpiob) ∧ e = .register reg) :
    setsUpExpander i ∨ ∃ reg v, i = .xmWrite reg v := by
  obtain ⟨_, he, reg, hreg, rfl⟩ := h
  cases i <;> simp_all [writesOf, setsUpExpander]

theorem writers_cacheA (h : ∃ e ∈ writesOf i, ∃ reg, (reg = regGpioa ∨ reg = regOlata) ∧ e = .register reg) :
    (∃ reg v, i = .xmWrite reg v) ∨ ∃ on, i = .xmSetGreen on ∨ i = .xmSetBacklight on := by
  obtain ⟨_, he, reg, hreg, rfl⟩ := h
  obtain rfl | rfl := hreg <;> cases i <;>
    simp_all [writesOf, regOlata, regGpioa, regGpiob, regIodira, regIodirb, regIpola, regGppua, regGpintena, regIntcona]

theorem writers_cacheB (h : ∃ e ∈ writesOf i, ∃ reg, (reg = regGpiob ∨ reg = regOlatb) ∧ e = .register reg) :
    isLcd i ∨ readsSensors i ∨ (∃ reg v, i = .xmWrite reg v) ∨ ∃ v, i = .xmWriteB v ∨ i = .xmSetRed v := by
  obtain ⟨_, he, reg, hreg, rfl⟩ := h
  rw [isLcd_iff]
  obtain rfl | rfl := hreg <;> cases i <;> simp_all [writesOf, regOlatb, regGpioa, regGpiob, regIodira,
    regIodirb, regIpola, regGppua, regGpintena, regIntcona, Laws.tableRow, readsSensors]

theorem writers_xmPresent (h : .xmPresent ∈ writesOf i) : setsUpExpander i := by
  cases i <;> simp_all [writesOf, setsUpExpander]

theorem writers_lcdPresent (h : .lcdPresent ∈ writesOf i) : setsUpDisplay i := by
  cases i <;> simp_all [writesOf, setsUpDisplay]

theorem writers_entry (h : .entry ∈ writesOf i) : setsUpDisplay i ∨ i = .lcdReset ∨ i = .lcdLeftToRight ∨
    i = .lcdRightToLeft ∨ ∃ on, i = .lcdSetAutoscroll on := by
  cases i <;> simp_all [writesOf, setsUpDisplay]

theorem writers_dctrl (h : .dctrl ∈ writesOf i) : setsUpDisplay i ∨ i = .lcdReset ∨
    ∃ on, i = .lcdSetDisplay on ∨ i = .lcdSetCursor on ∨ i = .lcdSetBlink on := by
  cases i <;> simp_all [writesOf, setsUpDisplay]

theorem writers_fmt (h : .fmt ∈ writesOf i) : i = .schedIterate ∨ i = .schedRun := by
  cases i <;> simp_all [writesOf]

theorem writers_err (h : .err ∈ writesOf i) : i = .schedIterate ∨ i = .schedRun := by
  cases i <;> simp_all [writesOf]

theorem writers_log (h : .log ∈ writesOf i) : i = .schedIterate ∨ i = .schedRun := by
  cases i <;> simp_all [writesOf]

theorem writers_diag (h : .diag ∈ writesOf i) : readsSensors i := by
  cases i <;> simp_all [writesOf, readsSensors]

theorem writers_readings (h : .readings ∈ writesOf i) : readsSensors i := by
  cases i <;> simp_all [writesOf, readsSensors]

theorem writers_phase (h : .phase ∈ writesOf i) : readsSensors i := by
  cases i <;> simp_all [writesOf, readsSensors]

theorem writers_logDl (h : .logDl ∈ writesOf i) : i = .schedStart ∨ waits i := by
  cases i <;> simp_all [writesOf, waits]

theorem writers_dispDl (h : .dispDl ∈ writesOf i) : i = .schedStart ∨ waits i ∨ i = .schedRestartDisplay := by
  cases i <;> simp_all [writesOf, waits]

theorem writers_waitStart (h : .waitStart ∈ writesOf i) : waits i := by
  cases i <;> simp_all [writesOf, waits]

theorem writers_loop (h : .loop ∈ writesOf i) : waits i := by
  cases i <;> simp_all [writesOf, waits]

theorem writers_drainedWake (h : .drainedWake ∈ writesOf i) : waits i := by
  cases i <;> simp_all [writesOf, waits]

theorem writers_drainedIrq (h : .drainedIrq ∈ writesOf i) : waits i := by
  cases i <;> simp_all [writesOf, waits]

theorem writers_setStop (h : .setStop ∈ writesOf i) : i = .schedStop := by
  cases i <;> simp_all [writesOf]

theorem writers_setWake (h : .setWake ∈ writesOf i) : i = .schedWake := by
  cases i <;> simp_all [writesOf]

/-! ## What a request leaves, whatever it answers -/

/-- Every request ends in a next state, and but for the responses that state is reached by the writes of its row. -/
theorem exec_evolves {s t : State} (h : exec i s = .next t) :
    ∃ u responses, Evolves (writesOf i) s u ∧ t = { u with responses := responses } := by
  obtain ⟨-, hexec⟩ | ⟨-, u, hexec, hended⟩ := exec_cases i s
  · rw [hexec] at h
    cases h
    exact ⟨s, _, Evolves.refl s, rfl⟩
  · rw [hexec] at h
    cases h
    cases hended with
    | answered results u hu => exact ⟨u, _, hu, rfl⟩
    | failed e u hu => exact ⟨u, _, hu, rfl⟩
    | goesOn _ ht => exact ⟨t, t.responses, ht, rfl⟩

/-! ## The newest response -/

/-- After an answer, the newest response is that answer. -/
theorem newResponse_respond {W : Set Element} {s u : State} (h : Evolves W s u) (bytes : List Byte) :
    newResponse s (u.respond bytes) = some (s.agent, bytes) := by
  obtain ⟨served, hserved, -⟩ := h.servedTo
  obtain ⟨-, -, -, -, hagent⟩ := h.keeps_fixed
  simp [newResponse, hserved, hagent]

/-- Without an answer, a newest response is REQ's and has status 0. -/
theorem newResponse_served {s u : State} (h : s.servedTo u) {a : Agent} {b : Byte} {bytes : List Byte}
    (hnew : newResponse s u = some (a, b :: bytes)) : b = 0 := by
  obtain ⟨served, hserved, hreq⟩ := h
  unfold newResponse at hnew
  split_ifs at hnew with hlonger
  have hne : served ≠ [] := by
    rintro rfl
    rw [hserved, List.append_nil] at hlonger
    exact absurd hlonger (lt_irrefl _)
  rw [hserved, List.getLast?_append_of_ne_nil _ hne] at hnew
  have hhead := (hreq _ (List.mem_of_getLast? hnew)).2
  simpa using hhead

/-- A status other than 0 among the newest responses is the request's own, an error with its cause. -/
theorem exec_of_status {s t : State} (h : exec i s = .next t) {b : Byte} (hb : b ≠ 0)
    (hnew : newResponse s t = some (s.agent, [b])) :
    (b = 2 ∧ configurationCause i s) ∨
      ∃ e u, b = e.code ∧ t = u.respond [b] ∧ Evolves (writesOf i) s u ∧ errorCause i s e u := by
  obtain ⟨hcause, hexec⟩ | ⟨-, t', hexec, hended⟩ := exec_cases i s <;> rw [hexec] at h <;> cases h
  · rw [newResponse_respond (Evolves.refl (W := ∅) s)] at hnew
    cases hnew
    exact .inl ⟨rfl, hcause⟩
  · cases hended with
    | answered results u hu =>
      rw [newResponse_respond hu] at hnew
      cases hnew
      exact absurd rfl hb
    | failed e u hu hcause =>
      rw [newResponse_respond hu] at hnew
      cases hnew
      exact .inr ⟨e, u, rfl, rfl, hu, hcause⟩
    | goesOn _ ht => exact absurd (newResponse_served ht.servedTo hnew) hb

end

end Sys2Proof.Machine

/-! ## The four statements -/

section

open Sys2Proof Sys2Proof.Machine

/-- Settles O14: the state a request ends in is reached by the writes of its row, and each clause is what such writes
do to one element. -/
theorem onlyTheWritersWrite : Obligations.OnlyTheWritersWrite := by
  unfold Obligations.OnlyTheWritersWrite
  intro i s t hexec
  obtain ⟨u, responses, h, rfl⟩ := exec_evolves hexec
  obtain ⟨hch0, hch1, hparams, hgap, hagent⟩ := h.keeps_fixed
  refine ⟨hch0, hch1, hparams, hgap, hagent, ?_⟩
  refine ⟨(h.keeps_or Move.keeps_shadow).imp_right writers_shadow,
    (h.keeps_or Move.keeps_cacheA).imp_right writers_cacheA,
    (h.keeps_or Move.keeps_cacheB).imp_right writers_cacheB,
    (h.keeps_or_mem Move.keeps_xmPresent).imp_right writers_xmPresent,
    (h.keeps_or_mem Move.keeps_lcdPresent).imp_right writers_lcdPresent,
    (h.keeps_or_mem Move.keeps_entry).imp_right writers_entry,
    (h.keeps_or_mem Move.keeps_dctrl).imp_right writers_dctrl,
    (h.keeps_or_mem Move.keeps_fmt).imp_right writers_fmt,
    (h.keeps_or_mem Move.keeps_err).imp_right writers_err,
    (h.keeps_or_mem Move.keeps_log).imp_right writers_log,
    ?readings,
    (h.keeps_or_mem Move.keeps_phase).imp_right writers_phase,
    (h.keeps_or_mem Move.keeps_logDl).imp_right writers_logDl,
    (h.keeps_or_mem Move.keeps_dispDl).imp_right writers_dispDl,
    (h.keeps_or_mem Move.keeps_waitStart).imp_right writers_waitStart,
    (h.keeps_or_mem Move.keeps_loop).imp_right writers_loop,
    h.now_le, h.stop_of_stop, ?wake, ?irqPend, ?quiet⟩
  case readings =>
    by_cases hreads : readsSensors i
    · exact .inr hreads
    · left
      obtain ⟨h0, h1, hts, hpub⟩ := readings_inj (h.keeps Move.keeps_readings (mt writers_readings hreads))
      have hdiag := h.keeps Move.keeps_diag (mt writers_diag hreads)
      exact ⟨h0, h1, hts, hpub, hdiag⟩
  case wake =>
    by_cases hwaits : waits i
    · exact .inr hwaits
    · exact .inl (h.wake_of_wake (mt writers_drainedWake hwaits))
  case irqPend =>
    by_cases hwaits : waits i
    · exact .inr hwaits
    · exact .inl (h.irqPend_of_irqPend (mt writers_drainedIrq hwaits))
  case quiet =>
    intro henv hdrawn
    obtain ⟨hnow, hprev, hirq, hstop, hwake⟩ := h.quiet henv hdrawn
    exact ⟨hnow, hprev, hirq, hstop.imp_right writers_setStop, hwake.imp_right writers_setWake⟩

/-- Settles O15: a request is refused or ends in one of the three ways of `Ended`, and the moves before its answer add
REQ's responses only. -/
theorem oneResponsePerRequest : Obligations.OneResponsePerRequest := by
  unfold Obligations.OneResponsePerRequest
  intro i s
  have hanswered {u : State} (hu : Evolves (writesOf i) s u) (bytes : List Byte) :
      ∃ served : List (Agent × List Byte), (∀ r ∈ served, r.1 = .req) ∧
        (u.respond bytes).responses = s.responses ++ served ++ [(s.agent, bytes)] := by
    obtain ⟨served, hserved, hreq⟩ := hu.servedTo
    obtain ⟨-, -, -, -, hagent⟩ := hu.keeps_fixed
    exact ⟨served, fun r hr => (hreq r hr).1, by rw [respond_responses, hserved, hagent]⟩
  obtain ⟨-, hexec⟩ | ⟨-, t, hexec, hended⟩ := exec_cases i s
  · exact ⟨_, [], hexec, by simp, .inl ⟨[2], by simp⟩⟩
  · refine ⟨t, ?_⟩
    cases hended with
    | answered results u hu =>
      obtain ⟨served, hreq, hresponses⟩ := hanswered hu (0 :: results)
      exact ⟨served, hexec, hreq, .inl ⟨_, hresponses⟩⟩
    | failed e u hu =>
      obtain ⟨served, hreq, hresponses⟩ := hanswered hu [e.code]
      exact ⟨served, hexec, hreq, .inl ⟨_, hresponses⟩⟩
    | goesOn _ ht hwaits hloop =>
      obtain ⟨served, hserved, hreq⟩ := ht.servedTo
      exact ⟨served, hexec, fun r hr => (hreq r hr).1, .inr ⟨hwaits, hloop, hserved⟩⟩

/-- Settles O16: a cause refuses the request, and no error of a request that is not refused is a configuration's. -/
theorem configurationErrors : Obligations.ConfigurationErrors := by
  unfold Obligations.ConfigurationErrors
  intro i s
  refine ⟨exec_refused, fun t hexec hnew => ?_⟩
  obtain ⟨-, hcause⟩ | ⟨e, u, hcode, -, -, hcause⟩ := exec_of_status hexec (by decide) hnew
  · exact hcause
  · cases e with
    | configuration => exact hcause.elim
    | bus | hardwareAbsent => simp [Err.code] at hcode

/-- Settles O17: the status tells the error, and the error has its cause. -/
theorem busErrorAndHardwareAbsentHaveTheirCauses : Obligations.BusErrorAndHardwareAbsentHaveTheirCauses := by
  unfold Obligations.BusErrorAndHardwareAbsentHaveTheirCauses
  intro i s t hexec
  constructor
  · intro hnew
    obtain ⟨hcode, -⟩ | ⟨e, u, hcode, rfl, -, hcause⟩ := exec_of_status hexec (by decide) hnew
    · simp at hcode
    · cases e with
      | bus => exact hcause
      | configuration | hardwareAbsent => simp [Err.code] at hcode
  · intro hnew
    obtain ⟨hcode, -⟩ | ⟨e, u, hcode, rfl, -, hcause⟩ := exec_of_status hexec (by decide) hnew
    · simp at hcode
    · cases e with
      | hardwareAbsent => exact hcause
      | bus | configuration => simp [Err.code] at hcode

end

/-! # The laws of the step

A step hands the state over to a request, or lets LOOP's request or the environment go on; either way what follows is a
run of moves. With O8 to O13. -/

namespace Sys2Proof.Machine

section

variable {s t : State}

/-! ## Everything a step can do -/

/-- The state as a step hands it on: the ports, the agent and the owed turn aside, it is the state before. -/
def State.handed (host req : List Byte) (a : Agent) (gap : Bool) (s : State) : State :=
  { s with hostPort := host, reqPort := req, agent := a, gap := gap }

/-- A step with a next state runs a request (LOOP's only when none is in progress), or idles, or goes on with LOOP's
request in progress. -/
theorem step_cases (h : step s = .next t) :
    (∃ i host req a gap, (s.loop = .idle ∨ i.reqMayIssue = true) ∧ exec i (s.handed host req a gap) = .next t) ∨
    (s.loop = .idle ∧ t = idleStep s) ∨
    (∃ w, s.loop = .waiting w ∧ t = tryWait w s.waitResumed) ∨
    (s.loop = .running ∧ t = resumeRun s) := by
  by_cases hport : s.reqPort = []
  · have hfetch : fetch s = fetchLoop s := by simp only [fetch, hport]
    simp only [step, hfetch, fetchLoop] at h
    cases hloop : s.loop with
    | waiting w =>
      simp only [hloop] at h
      cases h
      exact .inr (.inr (.inl ⟨w, rfl, rfl⟩))
    | running =>
      simp only [hloop] at h
      cases h
      exact .inr (.inr (.inr ⟨rfl, rfl⟩))
    | idle =>
      simp only [hloop] at h
      split_ifs at h with hquiet
      · cases h
        exact .inr (.inl ⟨rfl, rfl⟩)
      · cases hdecode : decode s.hostPort with
        | error e => simp [fetchHost, hdecode] at h
        | ok p =>
          obtain ⟨i, rest⟩ := p
          simp only [fetchHost, hdecode] at h
          exact .inl ⟨i, rest, s.reqPort, .loop, true, .inl rfl, h⟩
  · obtain ⟨i, rest, hi, hexec⟩ := step_req hport h
    exact .inl ⟨i, s.hostPort, rest, .req, s.gap, .inr hi, hexec⟩

theorem PassEnds.evolves {W : Set Element} (h : PassEnds W s t) :
    ∃ u responses, Evolves W s u ∧ t = { u with responses := responses } ∧ u.responses <+: responses := by
  cases h with
  | answered results u hu => exact ⟨u, _, hu, rfl, List.prefix_append _ _⟩
  | goesOn _ ht => exact ⟨t, t.responses, ht, rfl, List.prefix_rfl⟩

/-- Every step that is not refused is a run of moves from the state it hands on, and perhaps an answer. -/
theorem step_evolves (h : step s = .next t) : ∃ host req a gap u responses,
    Evolves Set.univ (s.handed host req a gap) u ∧ t = { u with responses := responses } ∧
      u.responses <+: responses := by
  obtain ⟨i, host, req, a, gap, -, hexec⟩ | ⟨-, rfl⟩ | ⟨w, -, rfl⟩ | ⟨-, rfl⟩ := step_cases h
  · refine ⟨host, req, a, gap, ?_⟩
    obtain ⟨-, hrefused⟩ | ⟨-, u, hexec', hended⟩ := exec_cases i (s.handed host req a gap)
    · rw [hexec] at hrefused
      cases hrefused
      exact ⟨_, _, Evolves.refl _, rfl, List.prefix_append _ _⟩
    · rw [hexec] at hexec'
      cases hexec'
      cases hended with
      | answered results u hu => exact ⟨u, _, hu.mono (Set.subset_univ _), rfl, List.prefix_append _ _⟩
      | failed e u hu => exact ⟨u, _, hu.mono (Set.subset_univ _), rfl, List.prefix_append _ _⟩
      | goesOn _ ht => exact ⟨t, t.responses, ht.mono (Set.subset_univ _), rfl, List.prefix_rfl⟩
  · exact ⟨s.hostPort, s.reqPort, s.agent, false, idleStep s, _, elapse_evolves (Set.mem_univ _) _, rfl,
      List.prefix_rfl⟩
  · have hends := ((tryWait_ends w s.waitResumed).mono (Set.subset_univ _)).after
      (elapse_evolves (Set.mem_univ _) ({ s with agent := .loop } : State))
    exact ⟨s.hostPort, s.reqPort, .loop, s.gap, hends.evolves⟩
  · have hends := ((runHead_ends _).mono (Set.subset_univ _)).after
      (interlude_evolves (Set.mem_univ _) ({ s with agent := .loop } : State))
    exact ⟨s.hostPort, s.reqPort, .loop, s.gap, hends.evolves⟩

/-! ## The phases (R38, R283) -/

/-- The readings exist and `PUB` is the whole triple. -/
def State.Published (s : State) : Prop :=
  s.temp0.isSome = true ∧ s.temp1.isSome = true ∧ s.ts.isSome = true ∧
    s.pub = { temp0 := s.temp0, temp1 := s.temp1, ts := s.ts }

theorem published_congr (h : t.readings = s.readings) (hs : s.Published) : t.Published := by
  obtain ⟨h0, h1, hts, hpub⟩ := readings_inj h
  rwa [State.Published, h0, h1, hts, hpub]

theorem readSensors_published (hs : s.Published) : (readSensors s).Published := by
  obtain ⟨h0, h1, hts, -⟩ := hs
  have hpolls : Evolves (writesBankB ∪ {.diag, .err}) s
      (pollSensor .outside .sensor1 (pollSensor .inside .sensor0 s).2).2 :=
    (pollSensor_evolves _ _ _).trans (pollSensor_evolves _ _ _)
  obtain ⟨-, -, hkept, -⟩ := readings_inj (hpolls.keeps Move.keeps_readings (by simp))
  refine ⟨?_, ?_, ?_, rfl⟩
  · simp [readSensors, State.publish, h0]
  · simp [readSensors, State.publish, h1]
  · simp only [readSensors, State.publish]
    split
    · rfl
    · rw [hkept, hts]

/-- The two phases in which a pass can end. -/
def State.Live (s : State) : Prop := (s.phase = .running ∨ s.phase = .stopped) ∧ s.Published

theorem phased_of_live (h : s.Live) (hloop : s.loop ≠ .idle → s.phase = .running) : s.Phased := by
  obtain ⟨hphase, hpublished⟩ := h
  exact ⟨hloop, fun hreset => by simp [hreset] at hphase, fun _ => hpublished,
    fun hfatal => by simp [hfatal] at hphase⟩

theorem phased_congr (hloop : t.loop = s.loop) (hphase : t.phase = s.phase) (hreadings : t.readings = s.readings)
    (hs : s.Phased) : t.Phased := by
  obtain ⟨h0, h1, hts, hpub⟩ := readings_inj hreadings
  obtain ⟨hbusy, hunread, hpublished, hunpublished⟩ := hs
  rw [← hphase] at hbusy hunread hpublished hunpublished
  rw [← hloop] at hbusy
  rw [← h0, ← h1, ← hts, ← hpub] at hunread hpublished
  rw [← hts, ← hpub] at hunpublished
  exact ⟨hbusy, hunread, hpublished, hunpublished⟩

theorem phased_of_keeps {W : Set Element} (h : Evolves W s t) (hphase : .phase ∉ W) (hreadings : .readings ∉ W)
    (hloop : .loop ∉ W) (hs : s.Phased) : t.Phased :=
  phased_congr (h.keeps Move.keeps_loop hloop) (h.keeps Move.keeps_phase hphase)
    (h.keeps Move.keeps_readings hreadings) hs

theorem live_of_evolves {W : Set Element} (h : Evolves W s t) (hphase : .phase ∉ W) (hreadings : .readings ∉ W)
    (hs : s.Live) : t.Live :=
  ⟨by rw [h.keeps Move.keeps_phase hphase]; exact hs.1,
    published_congr (h.keeps Move.keeps_readings hreadings) hs.2⟩

theorem afterWait_live (ev : Event) (hs : s.Live) : (afterWait ev s).2.Live := by
  have hbetween : s.interlude.Live :=
    live_of_evolves (W := {.env}) (interlude_evolves (Set.mem_singleton _) s) (by simp) (by simp) hs
  unfold afterWait
  simp only
  split
  · exact ⟨.inr rfl, hbetween.2⟩
  · have hread : (readSensors s.interlude).Live :=
      ⟨by rw [(readSensors_evolves _).keeps Move.keeps_phase (by simp)]; exact hbetween.1,
        readSensors_published hbetween.2⟩
    exact live_of_evolves (eventAction_evolves ev _) (by simp) (by simp) hread

theorem endPass_phased (w : Waiter) (ev : Event) (hs : s.Live) : (endPass w ev s).Phased := by
  cases w with
  | wait | iterate => exact phased_of_live (s := State.respond _ _) hs fun h => absurd rfl h
  | run =>
    simp only [endPass]
    split
    next hrunning => exact phased_of_live (s := { s with loop := .running }) hs fun _ => hrunning
    next => exact phased_of_live (s := State.respond _ _) hs fun h => absurd rfl h

theorem tryWait_phased (w : Waiter) (hrunning : s.phase = .running) (hs : s.Published) : (tryWait w s).Phased := by
  have hlive : s.Live := ⟨.inl hrunning, hs⟩
  unfold tryWait
  split
  next ev b hev =>
    have hb : b.Live := live_of_evolves (evalWait_evolves hev) (by simp [drains]) (by simp [drains]) hlive
    cases w with
    | wait => exact endPass_phased .wait ev hb
    | iterate => exact endPass_phased .iterate (afterWait ev b).1 (afterWait_live ev hb)
    | run => exact endPass_phased .run (afterWait ev b).1 (afterWait_live ev hb)
  next => exact phased_of_live (s := { s with loop := .waiting w }) hlive fun _ => hrunning

theorem startWait_phased (w : Waiter) (hrunning : s.phase = .running) (hs : s.Published) : (startWait w s).Phased :=
  tryWait_phased w (s := { s with waitStart := s.now }) hrunning hs

/-- A step of the environment keeps the readings and the phase. -/
theorem published_of_env {u : State} (h : Evolves {.env} s u) (hrunning : s.phase = .running) (hs : s.Published) :
    u.phase = .running ∧ u.Published :=
  ⟨(h.keeps Move.keeps_phase (by simp)).trans hrunning,
    published_congr (h.keeps Move.keeps_readings (by simp)) hs⟩

theorem startPass_phased (w : Waiter) (hrunning : s.phase = .running) (hs : s.Published) :
    (startPass w s).Phased := by
  unfold startPass
  split
  · exact endPass_phased w .stop (s := { s with phase := .stopped }) ⟨.inr rfl, hs⟩
  · obtain ⟨hphase, hpublished⟩ := published_of_env (interlude_evolves (Set.mem_singleton _) s) hrunning hs
    exact startWait_phased w hphase hpublished

theorem runHead_phased (hrunning : s.phase = .running) (hs : s.Published) : (runHead s).Phased := by
  rw [runHead, if_pos hrunning]
  exact startPass_phased .run hrunning hs

/-- A probe leaves what it reads for start-up to note. -/
theorem probeSensor_readings {i : ChannelId} {o : Origin} {r : Res Temp} (h : probeSensor i o s = r) :
    r.state.temp0 = s.temp0 ∧ r.state.temp1 = s.temp1 ∧ r.state.ts = s.ts ∧ r.state.pub = s.pub := by
  have hwithin := probeSensor_within i o s
  rw [h] at hwithin
  cases r with
  | ok v t => exact readings_inj (Evolves.keeps Move.keeps_readings hwithin (by simp))
  | err e t => exact readings_inj (hwithin.1.keeps Move.keeps_readings (by simp))

/-- Start-up ends with everything read and published, or in phase Fatal with nothing published. -/
theorem schedStart_phased (hreset : s.phase = .reset) (hs : s.Phased) :
    (∀ a u, schedStart s = .ok a u → u.phase = .running ∧ u.Published) ∧
      ∀ e u, schedStart s = .err e u → s.loop = .idle → u.Phased := by
  obtain ⟨-, -, hts, hpub⟩ := hs.unread hreset
  constructor
  · intro a u h
    rw [schedStart, if_pos hreset] at h
    obtain ⟨v0, t0, h0, h⟩ := andThen_eq_ok h
    obtain ⟨v1, t1, h1, h⟩ := andThen_eq_ok h
    cases h
    obtain ⟨htemp0, -⟩ := probeSensor_readings h1
    have hsome : t1.temp0 = some v0 := htemp0
    refine ⟨rfl, ?_, rfl, rfl, rfl⟩
    simp [armTimers, State.publish, hsome]
  · intro e u h hidle
    have hwithin := schedStart_within hreset
    rw [h] at hwithin
    obtain ⟨hevolves, -, hfatal⟩ := hwithin
    have hloop := (hevolves.keeps Move.keeps_loop (by simp)).trans hidle
    have hunits : (startUnits s).readings = s.readings :=
      (startUnits_evolves s).keeps Move.keeps_readings (by simp)
    have hkept : u.ts = s.ts ∧ u.pub = s.pub := by
      rw [schedStart, if_pos hreset] at h
      obtain ⟨-, -, hts0, hpub0⟩ := readings_inj hunits
      obtain h0 | ⟨v0, t0, h0, h⟩ := andThen_eq_err h
      · obtain ⟨-, -, hts1, hpub1⟩ := probeSensor_readings h0
        exact ⟨hts1.trans hts0, hpub1.trans hpub0⟩
      · obtain ⟨-, -, hts1, hpub1⟩ := probeSensor_readings h0
        obtain h1 | ⟨v1, t1, -, h2⟩ := andThen_eq_err h
        · obtain ⟨-, -, hts2, hpub2⟩ := probeSensor_readings h1
          exact ⟨hts2.trans (hts1.trans hts0), hpub2.trans (hpub1.trans hpub0)⟩
        · cases h2
    refine ⟨fun hbusy => absurd hloop hbusy, fun hreset' => ?_, fun hlive => ?_, fun _ => ?_⟩
    · simp [hfatal] at hreset'
    · simp [hfatal] at hlive
    · exact ⟨hkept.1.trans hts, hkept.2.trans hpub⟩

theorem exec_schedRun_phased (hidle : s.loop = .idle) (hs : s.Phased) (h : exec .schedRun s = .next t) :
    t.Phased := by
  cases hphase : s.phase with
  | reset =>
    obtain ⟨hok, herr⟩ := schedStart_phased hphase hs
    simp only [exec, execSchedRun, hphase] at h
    cases hr : schedStart s with
    | ok a u =>
      obtain ⟨hrunning, hpublished⟩ := hok a u hr
      rw [hr] at h
      cases h
      exact phased_of_live (s := { u with loop := .running }) ⟨.inl hrunning, hpublished⟩ fun _ => hrunning
    | err e u =>
      rw [hr] at h
      cases h
      exact phased_congr (s := u) rfl rfl rfl (herr e u hr hidle)
  | running =>
    simp only [exec, execSchedRun, hphase] at h
    cases h
    exact runHead_phased hphase (hs.published (.inl hphase))
  | stopped =>
    rw [exec_refused (i := .schedRun) (Or.inl hphase)] at h
    cases h
    exact phased_congr (s := s) rfl rfl rfl hs
  | fatal =>
    rw [exec_refused (i := .schedRun) (Or.inr hphase)] at h
    cases h
    exact phased_congr (s := s) rfl rfl rfl hs

/-- Only start-up and the requests that wait write what these clauses speak of. -/
theorem exec_phased {i : Instr} (hi : s.loop = .idle ∨ i.reqMayIssue = true) (hs : s.Phased)
    (h : exec i s = .next t) : t.Phased := by
  by_cases hcause : configurationCause i s
  · rw [exec_refused hcause] at h
    cases h
    exact phased_congr (s := s) rfl rfl rfl hs
  by_cases hwrites : i = .schedStart ∨ waits i
  · have hidle : s.loop = .idle := hi.resolve_right (by
      obtain rfl | rfl | rfl | rfl := hwrites <;> simp [Instr.reqMayIssue])
    obtain rfl | rfl | rfl | rfl := hwrites
    · obtain ⟨hok, herr⟩ := schedStart_phased (not_not.1 hcause) hs
      simp only [exec, execSchedStart] at h
      cases hr : schedStart s with
      | ok a u =>
        obtain ⟨hrunning, hpublished⟩ := hok a u hr
        rw [hr] at h
        cases h
        exact phased_of_live (s := State.respond _ u) ⟨.inl hrunning, hpublished⟩ fun _ => hrunning
      | err e u =>
        rw [hr] at h
        cases h
        exact phased_congr (s := u) rfl rfl rfl (herr e u hr hidle)
    · have hrunning : s.phase = .running := not_not.1 hcause
      simp only [exec, execSchedWait, if_pos hrunning] at h
      cases h
      exact startWait_phased .wait hrunning (hs.published (.inl hrunning))
    · have hrunning : s.phase = .running := not_not.1 hcause
      simp only [exec, execSchedIterate, if_pos hrunning] at h
      cases h
      exact startPass_phased .iterate hrunning (hs.published (.inl hrunning))
    · exact exec_schedRun_phased hidle hs h
  · obtain ⟨hstart, hwaits⟩ := not_or.1 hwrites
    have hreads : ¬ readsSensors i := fun hreads => hreads.elim hstart fun hreads => hwaits (.inr hreads)
    obtain ⟨u, responses, hu, rfl⟩ := exec_evolves h
    refine phased_congr (s := u) rfl rfl rfl ?_
    exact phased_of_keeps hu (mt writers_phase hreads) (mt writers_readings hreads) (mt writers_loop hwaits) hs

theorem step_phased (hs : s.Phased) (h : step s = .next t) : t.Phased := by
  have hbusy (hloop : s.loop ≠ .idle) : s.phase = .running ∧ s.Published :=
    ⟨hs.busy hloop, hs.published (.inl (hs.busy hloop))⟩
  obtain ⟨i, host, req, a, gap, hi, hexec⟩ | ⟨hidle, rfl⟩ | ⟨w, hw, rfl⟩ | ⟨hrun, rfl⟩ := step_cases h
  · exact exec_phased (s := s.handed host req a gap) hi (phased_congr (s := s) rfl rfl rfl hs) hexec
  · exact phased_of_keeps (W := {.env}) (s := { s with gap := false })
      (elapse_evolves (Set.mem_singleton _) _) (by simp) (by simp) (by simp) (phased_congr (s := s) rfl rfl rfl hs)
  · obtain ⟨hphase, hpublished⟩ := hbusy (by simp [hw])
    obtain ⟨hphase', hpublished'⟩ := published_of_env (s := { s with agent := .loop })
      (elapse_evolves (Set.mem_singleton _) _) hphase hpublished
    exact tryWait_phased w hphase' hpublished'
  · obtain ⟨hphase, hpublished⟩ := hbusy (by simp [hrun])
    obtain ⟨hphase', hpublished'⟩ := published_of_env (s := { s with agent := .loop })
      (interlude_evolves (Set.mem_singleton _) _) hphase hpublished
    exact runHead_phased hphase' hpublished'

/-! ## Phases Stopped and Fatal (R283) -/

/-- What the scheduler writes. -/
def State.scheduled (s : State) :=
  (s.phase, s.readings, s.fmt, s.err, s.log, s.diag, s.logDl, s.dispDl)

/-- In a final phase every request that writes one of these is refused. -/
theorem exec_final {i : Instr} (hfinal : s.phase = .stopped ∨ s.phase = .fatal) (h : exec i s = .next t) :
    t.scheduled = s.scheduled := by
  by_cases hcause : configurationCause i s
  · rw [exec_refused hcause] at h
    cases h
    rfl
  have hstart : i ≠ .schedStart := by
    rintro rfl
    exact hcause fun hreset => by simp [hreset] at hfinal
  have hrestart : i ≠ .schedRestartDisplay := by
    rintro rfl
    exact hcause fun hrunning => by simp [hrunning] at hfinal
  have hwaits : ¬ waits i := by
    rintro (rfl | rfl | rfl)
    · exact hcause fun hrunning => by simp [hrunning] at hfinal
    · exact hcause fun hrunning => by simp [hrunning] at hfinal
    · exact hcause hfinal
  have hpass : ¬ (i = .schedIterate ∨ i = .schedRun) := fun hpass => hwaits (.inr hpass)
  have hreads : ¬ readsSensors i := fun hreads => hreads.elim hstart hpass
  obtain ⟨u, responses, hu, rfl⟩ := exec_evolves h
  have hphase := hu.keeps Move.keeps_phase (mt writers_phase hreads)
  have hreadings := hu.keeps Move.keeps_readings (mt writers_readings hreads)
  have hfmt := hu.keeps Move.keeps_fmt (mt writers_fmt hpass)
  have herr := hu.keeps Move.keeps_err (mt writers_err hpass)
  have hlog := hu.keeps Move.keeps_log (mt writers_log hpass)
  have hdiag := hu.keeps Move.keeps_diag (mt writers_diag hreads)
  have hlogDl := hu.keeps Move.keeps_logDl (mt writers_logDl (not_or.2 ⟨hstart, hwaits⟩))
  have hdispDl := hu.keeps Move.keeps_dispDl (mt writers_dispDl (not_or.2 ⟨hstart, not_or.2 ⟨hwaits, hrestart⟩⟩))
  calc State.scheduled { u with responses := responses } = u.scheduled := rfl
    _ = s.scheduled := by
      rw [State.scheduled, hphase, hreadings, hfmt, herr, hlog, hdiag, hlogDl, hdispDl, State.scheduled]

theorem step_final (hs : s.Phased) (hfinal : s.phase = .stopped ∨ s.phase = .fatal) (h : step s = .next t) :
    t.scheduled = s.scheduled := by
  have hidle : s.loop = .idle := by
    by_contra hbusy
    simp [hs.busy hbusy] at hfinal
  obtain ⟨i, host, req, a, gap, -, hexec⟩ | ⟨-, rfl⟩ | ⟨w, hw, -⟩ | ⟨hrun, -⟩ := step_cases h
  · exact exec_final (s := s.handed host req a gap) hfinal hexec
  · rw [idleStep, elapse_eq]
    rfl
  · simp [hidle] at hw
  · simp [hidle] at hrun

end

end Sys2Proof.Machine

/-! ## The six statements -/

section

open Sys2Proof Sys2Proof.Machine

/-- Settles O8: the reset state is written out field by field. -/
theorem resetValues : Obligations.ResetValues := by
  unfold Obligations.ResetValues
  refine ⟨rfl, rfl, rfl, rfl, rfl, rfl, rfl, rfl, rfl, rfl, rfl, rfl, rfl, rfl, ?_⟩
  exact ⟨rfl, rfl, rfl, rfl, rfl, rfl, rfl, rfl, rfl, rfl, rfl, rfl, rfl⟩

/-- Settles O9: nothing is read, recorded or written at reset, and the open parameters are successors. -/
theorem resetMeetsInvariants : Obligations.ResetMeetsInvariants := by
  unfold Obligations.ResetMeetsInvariants
  refine ⟨inv_iff.2 ⟨?timely, ?phased⟩, ?caches⟩
  case timely =>
    exact ⟨⟨Nat.succ_pos _, Nat.succ_pos _, Nat.succ_pos _⟩, Nat.zero_le _, nofun, ⟨nofun, nofun⟩,
      ⟨.nil, nofun⟩, ⟨.nil, nofun⟩, Nat.zero_le _, Nat.zero_le _⟩
  case phased => exact ⟨fun h => absurd rfl h, fun _ => ⟨rfl, rfl, rfl, rfl⟩, nofun, nofun⟩
  case caches => exact ⟨rfl, rfl, rfl, rfl, rfl, rfl, rfl, rfl, rfl, rfl⟩

/-- Settles O10: every move keeps the clauses on times and ranges, and every request those on the phases. -/
theorem stepKeepsInvariant : Obligations.StepKeepsInvariant := by
  unfold Obligations.StepKeepsInvariant
  intro s t hs hstep
  obtain ⟨htimely, hphased⟩ := inv_iff.1 hs
  obtain ⟨host, req, a, gap, u, responses, hu, rfl, -⟩ := step_evolves hstep
  have hhanded : (s.handed host req a gap).Timely :=
    ⟨htimely.periods, htimely.waited, htimely.stamped, htimely.ranges, htimely.logOrdered, htimely.diagOrdered,
      htimely.deadlines⟩
  obtain ⟨hperiods, hwaited, hstamped, hranges, hlog, hdiag, hdeadlines⟩ := hu.timely hhanded
  exact inv_iff.2 ⟨⟨hperiods, hwaited, hstamped, hranges, hlog, hdiag, hdeadlines⟩, step_phased hphased hstep⟩

/-- Settles O11: every move keeps the law. -/
theorem stepKeepsCacheLaw : Obligations.StepKeepsCacheLaw := by
  unfold Obligations.StepKeepsCacheLaw
  intro s t hs hstep
  obtain ⟨host, req, a, gap, u, responses, hu, rfl, -⟩ := step_evolves hstep
  have hhanded : (s.handed host req a gap).CacheLaw := cacheLaw_congr (s := s) rfl rfl rfl (fun _ _ => rfl) hs
  exact cacheLaw_congr (s := u) rfl rfl rfl (fun _ _ => rfl) (hu.cacheLaw hhanded)

/-- Settles O12: no move goes back in time or takes a record or a response away. -/
theorem stepIsMonotone : Obligations.StepIsMonotone := by
  unfold Obligations.StepIsMonotone
  intro s t hstep
  obtain ⟨host, req, a, gap, u, responses, hu, rfl, hresponses⟩ := step_evolves hstep
  obtain ⟨htrace, hlog, hdiag⟩ := hu.streams
  obtain ⟨served, hserved, -⟩ := hu.servedTo
  have hbefore : s.responses <+: u.responses := ⟨served, hserved.symm⟩
  exact ⟨hu.now_le, htrace, hlog, hdiag, hbefore.trans hresponses⟩

/-- Settles O13: no move takes back a stop request or the error indicator or touches configuration and parameters; in
a final phase the requests that write the rest are refused. -/
theorem stickyState : Obligations.StickyState := by
  unfold Obligations.StickyState
  intro s t hs hstep
  obtain ⟨-, hphased⟩ := inv_iff.1 hs
  have hfinal := step_final hphased (h := hstep)
  obtain ⟨host, req, a, gap, u, responses, hu, rfl, -⟩ := step_evolves hstep
  obtain ⟨hch0, hch1, hparams, -, -⟩ := hu.keeps_fixed
  refine ⟨hu.stop_of_stop, hu.err_of_err, fun hphase => ?_, hch0, hch1, hparams⟩
  have hsame := hfinal hphase
  simp only [State.scheduled, State.readings, Prod.mk.injEq] at hsame
  obtain ⟨hp, ⟨h0, h1, hts, hpub⟩, hfmt, herr, hlog, hdiag, hlogDl, hdispDl⟩ := hsame
  exact ⟨hp, h0, h1, hts, hpub, hfmt, herr, hlog, hdiag, hlogDl, hdispDl⟩

end

/-! # The iteration (43_scheduler.md R263 to R274) and the steps without a request

With O7, O40 and O55 to O58. An iteration that a source ends is the sensor-read step and that source's action. -/

namespace Sys2Proof.Machine

section

variable {s b c : State} {code : Byte}

/-! ## A wait that blocks -/

theorem tryWait_of_waitOutcome_none {w : Waiter} (h : waitOutcome s = none) :
    tryWait w s = { s with loop := .waiting w } := by
  rw [tryWait, evalWait_none h]

theorem waitResumed_loop (s : State) : s.waitResumed.loop = s.loop := by
  rw [State.waitResumed, elapse_eq]
  rfl

/-- A blocked request whose wait goes on stays as it is after the environment acted. -/
theorem step_blockedIn_none {w : Waiter} (h : s.blockedIn w) (hwait : waitOutcome s.waitResumed = none) :
    step s = .next s.waitResumed := by
  have hloop : s.waitResumed.loop = .waiting w := (waitResumed_loop s).trans h.2
  rw [step_blockedIn h, tryWait_of_waitOutcome_none hwait, ← hloop]

/-- An iteration's wait begins after the turn of the environment that follows the first stop check. -/
theorem startWait_interlude (w : Waiter) (s : State) : startWait w s.interlude = tryWait w s.waitStarted := by
  have hstart : ({ s.interlude with waitStart := s.interlude.now } : State) = s.waitStarted :=
    congrArg (fun n => ({ s.interlude with waitStart := n } : State)) (interlude_now s)
  rw [startWait, hstart]

theorem startPass_of_stop (w : Waiter) (hstop : s.stop = true) :
    startPass w s = endPass w .stop { s with phase := .stopped } := by
  rw [startPass, if_pos hstop]

theorem startPass_of_not_stop (w : Waiter) (hstop : s.stop = false) : startPass w s = tryWait w s.waitStarted := by
  rw [startPass, if_neg (by simp [hstop]), startWait_interlude]

theorem exec_schedIterate (hphase : s.phase = .running) : exec .schedIterate s = .next (startPass .iterate s) := by
  simp only [exec, execSchedIterate, if_pos hphase]

theorem exec_schedRun_running (hphase : s.phase = .running) : exec .schedRun s = .next (startPass .run s) := by
  simp only [exec, execSchedRun, hphase, runHead, if_true]

theorem interlude_phase (s : State) : s.interlude.phase = s.phase := by
  rw [interlude_eq]
  rfl

theorem step_idle (hreq : s.reqPort = []) (hidle : s.loop = .idle) (hquiet : s.gap = true ∨ s.hostPort = []) :
    step s = .next ({ s with gap := false } : State).elapse := by
  simp only [step, fetch, hreq, fetchLoop, hidle, if_pos hquiet, idleStep]

theorem step_running (hreq : s.reqPort = []) (hloop : s.loop = .running) : step s = .next (resumeRun s) := by
  have hfetch : fetch s = .quiet (resumeRun s) := by simp only [fetch, hreq, fetchLoop, hloop]
  simp only [step, hfetch]

theorem step_between_passes (hreq : s.reqPort = []) (hloop : s.loop = .running) (hphase : s.phase = .running) :
    step s = exec .schedRun ({ s with agent := .loop } : State).interlude := by
  have hlater : ({ s with agent := .loop } : State).interlude.phase = .running := (interlude_phase _).trans hphase
  rw [exec_schedRun_running hlater, step_running hreq hloop, resumeRun, runHead, if_pos hlater]

/-! ## After the wait (R267, R268) -/

theorem Event.code_injective {a b : Event} (h : a.code = b.code) : a = b := by
  cases a <;> cases b <;> simp [Event.code] at h ⊢

theorem afterWait_of_stop {ev : Event} (h : ev = .stop ∨ s.interlude.stop = true) :
    afterWait ev s = (.stop, { s.interlude with phase := .stopped }) := by
  rw [afterWait, if_pos h]

theorem afterWait_of_not_stop {ev : Event} (hev : ev ≠ .stop) (hstop : s.interlude.stop = false) :
    afterWait ev s = (ev, eventAction ev s.interlude.sensorsRead) := by
  rw [afterWait, if_neg (by simp [hev, hstop]), readSensors_eq]

/-- SCHED.ITERATE answers what its wait and the check after it make of the event. -/
theorem tryWait_iterate (h : waitOutcome s = some (code, b)) : ∃ ev : Event, ev.code = code ∧
    tryWait .iterate s = (afterWait ev b).2.answered (afterWait ev b).1.code :=
  tryWait_of_waitOutcome h

theorem tryWait_iterate_stops (h : waitOutcome s = some (code, b)) (hstop : code = 5 ∨ b.interlude.stop = true) :
    tryWait .iterate s = State.answered 5 { b.interlude with phase := .stopped } := by
  obtain ⟨ev, rfl, hgo⟩ := tryWait_iterate h
  rw [hgo, afterWait_of_stop (hstop.imp_left fun hcode => Event.code_injective (b := .stop) hcode)]
  rfl

/-- An iteration that no stop request ends is the sensor-read step, then the action of the source. -/
theorem iterates_event {ev : Event} (hev : ev ≠ .stop) :
    iterates s ev.code c ((eventAction ev c.sensorsRead).answered ev.code) := by
  intro _ hstop
  have hgo {u b : State} (hb : waitOutcome u = some (ev.code, b)) (hc : c = b.interlude) :
      tryWait .iterate u = (eventAction ev c.sensorsRead).answered ev.code := by
    subst hc
    obtain ⟨ev', hcode, hgo⟩ := tryWait_iterate hb
    obtain rfl := Event.code_injective hcode
    rw [hgo, afterWait_of_not_stop hev hstop]
  constructor
  · rintro hphase hnotstop ⟨b, hb, hc⟩
    rw [exec_schedIterate hphase, startPass_of_not_stop _ hnotstop, hgo hb hc]
  · rintro hblocked ⟨b, hb, hc⟩
    rw [step_blockedIn hblocked, hgo hb hc]

/-- The parameters are those of the state the iteration starts in, or there is no such iteration. -/
theorem iterates_of_params_ne {t : State} (h : c.params ≠ s.params) : iterates s code c t := by
  have hnone {u b : State} (hu : u.params = s.params) (hb : waitOutcome u = some (code, b)) : c ≠ b.interlude := by
    rintro rfl
    obtain ⟨-, -, hdrain, -, -⟩ := (waitOutcome_evolves hb).keeps_fixed
    obtain ⟨-, -, hturn, -, -⟩ := (interlude_evolves (Set.mem_singleton _) b).keeps_fixed
    exact h (hturn.trans (hdrain.trans hu))
  intro _ _
  constructor
  · rintro - - ⟨b, hb, hc⟩
    refine absurd hc (hnone ?_ hb)
    rw [State.waitStarted, interlude_eq]
    rfl
  · rintro - ⟨b, hb, hc⟩
    refine absurd hc (hnone ?_ hb)
    rw [State.waitResumed, elapse_eq]
    rfl

/-! ## The actions (R271 to R274) -/

theorem sensorsRead_log (s : State) : s.sensorsRead.log = s.log := by
  rw [← readSensors_eq]
  exact (readSensors_evolves s).keeps Move.keeps_log (by simp)

theorem sensorsRead_params (s : State) : s.sensorsRead.params = s.params := by
  rw [← readSensors_eq]
  exact (readSensors_evolves s).keeps_fixed.2.2.1

theorem exchanged_params (s : State) (ops : List BusOp) (data : List (List Byte)) :
    (s.exchanged ops data).params = s.params := by
  rw [exchanged_eq, elapse_eq]
  rfl

/-- With a display a text is the run of its bytes, after a clear. -/
theorem showText_eq {text : List Byte} (h : s.lcdPresent = true) :
    (∀ t, sendList (commandOf 0x01 :: textOf text) s = .ok () t → showText text s = t) ∧
      ∀ t, sendList (commandOf 0x01 :: textOf text) s = .err .bus t → showText text s = t.emitDiag .bus .display := by
  have hrun : ((command cmdClear s).andThen fun _ s1 => message text s1) =
      sendList (commandOf 0x01 :: textOf text) s := by
    rw [command_eq cmdClear s h, sendList]
    cases hr : sendOne (commandOf 0x01) s with
    | ok a t =>
      have ht : t.lcdPresent = true := (sendOne_present hr).trans h
      simp only [cmdClear, hr, andThen_ok, message_eq text ht]
    | err e t => simp only [cmdClear, hr, andThen_err]
  rw [showText, hrun]
  exact ⟨fun t ht => by rw [ht], fun t ht => by rw [ht]⟩

/-- The bytes an iteration's text sends, and what it ends in when one of them fails. -/
theorem sendsThen_showText {text : List Byte} {ev : Event} {q : State} (hev : ev ≠ .stop)
    (hlcd : q.lcdPresent = true) (haction : eventAction ev c.sensorsRead = showText text q) :
    sendsThen
      (fun t => iterates s ev.code c (State.answered ev.code { t with
        diag := t.diag ++ [{ time := t.now, status := .bus, origin := .display }] }))
      (commandOf 0x01 :: textOf text) (fun t => iterates s ev.code c (t.answered ev.code)) q := by
  obtain ⟨hok, herr⟩ := showText_eq (text := text) hlcd
  have hiterates := iterates_event (s := s) (c := c) hev
  rw [haction] at hiterates
  refine sendsThen_of_sendList (fun t ht => ?_) fun t ht => ?_
  · rw [hok t ht] at hiterates
    exact hiterates
  · rw [herr t ht] at hiterates
    exact hiterates

/-! ## The button action (R273) -/

/-- What the button action reads, by the outcome of its two reads. -/
theorem buttonAction_absent (h : s.xmPresent = false) : buttonAction s = s := by
  simp [buttonAction, h]

theorem buttonAction_ack_failed (h : s.xmPresent = true) (hbus : s.nextDraw.outcome = .busError) :
    buttonAction s = (s.exchangeFailed (readOps 0x10)).emitDiag .bus .buttons := by
  simp only [buttonAction, ackInt, h, if_true, regRead_failed _ hbus, andThen_err]
  rfl

section

variable (h : s.xmPresent = true) (hok : s.nextDraw.outcome ≠ .busError)
  (hb : b = s.exchanged (readOps 0x10) [[(drawData s.nextDraw).headD 0]])

include h hok hb

theorem buttonAction_acked : buttonAction s =
    match readButtons b with
    | .ok mask t => actOnMask mask t
    | .err e t => t.emitDiag e .buttons := by
  subst hb
  simp only [buttonAction, ackInt, h, if_true, regRead_ok _ hok, andThen_ok]
  rfl

theorem buttonAction_read_failed (hbus : b.nextDraw.outcome = .busError) :
    buttonAction s = (b.exchangeFailed (readOps 0x12)).emitDiag .bus .buttons := by
  have hpresent : b.xmPresent = true := by rw [hb, exchanged_xmPresent, h]
  rw [buttonAction_acked h hok hb, readButtons, if_pos hpresent, regRead_failed _ hbus]
  rfl

theorem buttonAction_read (hread : b.nextDraw.outcome ≠ .busError) :
    buttonAction s = actOnMask ((drawData b.nextDraw).headD 0 &&& 0x3F)
      (b.exchanged (readOps 0x12) [[(drawData b.nextDraw).headD 0]]) := by
  have hpresent : b.xmPresent = true := by rw [hb, exchanged_xmPresent, h]
  rw [buttonAction_acked h hok hb, readButtons, if_pos hpresent, regRead_ok _ hread]
  rfl

end

/-- What the first pressed button of R273's order is, from the byte that was read. -/
theorem pressedButton_cases (byte : Byte) :
    (byte.getLsbD 0 = true → pressedButton (byte &&& 0x3F) = some .select) ∧
    (byte &&& 0x09 = 0x08 → pressedButton (byte &&& 0x3F) = some .up) ∧
    (byte &&& 0x0D = 0x04 → pressedButton (byte &&& 0x3F) = some .down) ∧
    (byte &&& 0x1D = 0x10 → pressedButton (byte &&& 0x3F) = some .left) ∧
    (byte &&& 0x1F = 0x02 → pressedButton (byte &&& 0x3F) = some .right) := by
  revert byte
  decide

theorem actOnMask_pressed {mask : Byte} {button : Button} (h : pressedButton mask = some button) :
    actOnMask mask s = { s with fmt := button.format, dispDl := s.now } := by
  have hmask : mask ≠ 0 := by
    rintro rfl
    have hnone : pressedButton 0 = none := by decide
    rw [hnone] at h
    cases h
  rw [actOnMask, if_neg hmask, h]
  rfl

/-- The reserved bit is no button's, and the mask is not zero. -/
theorem actOnMask_reserved (s : State) :
    actOnMask 0x20 s = if s.lcdPresent then showText s.params.unknownText s else s := by
  have hmask : (0x20 : Byte) ≠ 0 := by decide
  have hnone : pressedButton 0x20 = none := by decide
  rw [actOnMask, if_neg hmask, hnone]

end

end Sys2Proof.Machine

/-! ## The six statements -/

section

open Sys2Proof Sys2Proof.Machine

/-- Settles O7: a wait that goes on leaves the request in progress, and what LOOP does without a request is one step of
the environment or the next pass. -/
theorem stepsWithoutRequest : Obligations.StepsWithoutRequest := by
  unfold Obligations.StepsWithoutRequest
  intro s
  refine ⟨step_idle, fun hphase hwait => ?wait, fun hblocked => ⟨fun code b hwait => ?answered, ?blocked⟩,
    fun hphase hstop hwait => ?iterate, step_blockedIn_none, step_between_passes⟩
  case wait =>
    simp only [exec, execSchedWait, if_pos hphase, startWait, tryWait_of_waitOutcome_none hwait]
  case answered => rw [step_blockedIn hblocked, tryWait_wait_of_waitOutcome hwait]
  case blocked => exact step_blockedIn_none hblocked
  case iterate =>
    rw [exec_schedIterate hphase, startPass_of_not_stop _ hstop, tryWait_of_waitOutcome_none hwait]

/-- Settles O40: every check of a U3 request but that of a `bool` byte comes after the display's presence. -/
theorem absentDisplay : Obligations.AbsentDisplay := by
  unfold Obligations.AbsentDisplay
  intro i s habsent hlcd hinit hcause
  have hok {r : Res Unit} (h : r = .ok () s) : finish r.noResult = .next (s.respond [0]) := by rw [h]; rfl
  rw [isLcd_iff] at hlcd
  cases i with
  | lcdSend b rs =>
    obtain ⟨v, rfl⟩ := exists_boolByte hcause
    simp [exec_lcdSend, habsent]
  | lcdData b => simp [exec_lcdData, habsent]
  | lcdCommand b => exact hok (command_absent b habsent)
  | lcdClear => exact hok (command_absent cmdClear habsent)
  | lcdHome => exact hok (command_absent cmdHome habsent)
  | lcdScrollLeft => exact hok (command_absent cmdScrollLeft habsent)
  | lcdScrollRight => exact hok (command_absent cmdScrollRight habsent)
  | lcdSetDisplay on =>
    obtain ⟨v, rfl⟩ := exists_boolByte hcause
    exact (dctrlSetter_results _ v (exec_lcdSetDisplay v s)).1 habsent
  | lcdSetCursor on =>
    obtain ⟨v, rfl⟩ := exists_boolByte hcause
    exact (dctrlSetter_results _ v (exec_lcdSetCursor v s)).1 habsent
  | lcdSetBlink on =>
    obtain ⟨v, rfl⟩ := exists_boolByte hcause
    exact (dctrlSetter_results _ v (exec_lcdSetBlink v s)).1 habsent
  | lcdLeftToRight => exact (entrySetter_results _ true (exec_lcdLeftToRight s)).1 habsent
  | lcdRightToLeft => exact (entrySetter_results _ false (exec_lcdRightToLeft s)).1 habsent
  | lcdSetAutoscroll on =>
    obtain ⟨v, rfl⟩ := exists_boolByte hcause
    exact (entrySetter_results _ v (exec_lcdSetAutoscroll v s)).1 habsent
  | lcdReset => exact hok (by simp [lcdReset, habsent])
  | lcdSetPos col row => exact hok (setPos_absent habsent)
  | lcdMessage text => exact hok (message_absent text habsent)
  | lcdCreateChar slot bitmap => exact hok (createChar_absent habsent)
  | lcdInit => exact absurd rfl hinit
  | _ => simp [Laws.tableRow] at hlcd

/-- Settles O55: a stop request at the first check ends the pass there, and one found later ends it after the wait. -/
theorem iterateStops : Obligations.IterateStops := by
  unfold Obligations.IterateStops
  intro s
  refine ⟨fun hphase hstop => ?_, fun code b hends => ⟨fun hphase hstop hwait => ?_, fun hblocked hwait => ?_⟩⟩
  · rw [exec_schedIterate hphase, startPass_of_stop _ hstop]
    rfl
  · rw [exec_schedIterate hphase, startPass_of_not_stop _ hstop, tryWait_iterate_stops hwait hends]
  · rw [step_blockedIn hblocked, tryWait_iterate_stops hwait hends]

/-- Settles O56: a log tick's action is one record, and a wake request and a timeout have none. -/
theorem iterateReadsAndLogs : Obligations.IterateReadsAndLogs := by
  unfold Obligations.IterateReadsAndLogs
  intro s c
  refine ⟨?_, iterates_event (ev := .wakeRequest) (by simp), iterates_event (ev := .timeout) (by simp)⟩
  rw [← sensorsRead_log]
  exact iterates_event (ev := .logTick) (by simp)

/-- Settles O57: the display action is the rendered text, or nothing. -/
theorem displayActionResult : Obligations.DisplayActionResult := by
  unfold Obligations.DisplayActionResult
  intro s c d
  constructor
  · intro habsent
    have hevent := iterates_event (s := s) (c := c) (ev := .displayTick) (by simp)
    rw [eventAction, displayAction, if_neg (Bool.not_eq_true _ ▸ habsent)] at hevent
    exact hevent
  · intro hpresent
    refine sendsThen_showText (ev := .displayTick) (by simp) hpresent ?_
    rw [eventAction, displayAction, if_pos hpresent]

/-- Settles O58: each case is what the button action does with the byte its second read gives. -/
theorem buttonActionResult : Obligations.ButtonActionResult := by
  unfold Obligations.ButtonActionResult
  intro s c d failed
  have hevent (t : State) (ht : buttonAction d = t) : iterates s 2 c (t.answered 2) := by
    have h := iterates_event (s := s) (c := c) (ev := .hardwareInterrupt) (by simp)
    rw [eventAction, ht] at h
    exact h
  refine ⟨fun habsent => hevent _ (buttonAction_absent habsent),
    fun hpresent hbus => hevent _ (buttonAction_ack_failed hpresent hbus), fun hpresent hok => ?_⟩
  intro a
  refine ⟨fun hbus => hevent _ (buttonAction_read_failed hpresent hok rfl hbus), fun hread => ?_⟩
  intro byte q select
  have hmask : buttonAction d = actOnMask (byte &&& 0x3F) q := buttonAction_read hpresent hok rfl hread
  have hpressed {button : Button} (h : pressedButton (byte &&& 0x3F) = some button) :
      iterates s 2 c ((select button.format).answered 2) :=
    hevent _ (hmask.trans (actOnMask_pressed h))
  obtain ⟨hselect, hup, hdown, hleft, hright⟩ := pressedButton_cases byte
  refine ⟨fun hzero => hevent _ ?released, fun h => hpressed (hselect h), fun h => hpressed (hup h),
    fun h => hpressed (hdown h), fun h => hpressed (hleft h), fun h => hpressed (hright h),
    fun hbit habsent => hevent _ ?absent, fun hbit hlcd => ?text⟩
  case released => rw [hmask, actOnMask, if_pos hzero]
  case absent => rw [hmask, hbit, actOnMask_reserved, if_neg (by simp [habsent])]
  case text =>
    by_cases hparams : c.params = s.params
    · refine sendsThen_showText (ev := .hardwareInterrupt) (by simp) hlcd ?_
      have hq : q.params = s.params :=
        (exchanged_params ..).trans ((exchanged_params ..).trans ((sensorsRead_params c).trans hparams))
      rw [eventAction, hmask, hbit, actOnMask_reserved, if_pos hlcd, hq]
    · exact sendsThen_of_sendList (fun _ _ => iterates_of_params_ne hparams) fun _ _ => iterates_of_params_ne hparams

end

/-! # The codec's laws (42_codec.md R226, R229, R233, R234)

With O27, O28 and O30 to O32. A decode divides the signed word, an encode packs the clamped value's code, and a code
that fits its width survives the two bytes. -/

namespace Sys2Proof.Machine

/-! ## One binary64 for each value (R234) -/

/-- The magnitude of a finite binary64 in units of `2^-1074`, the least subnormal one. -/
def f64Magnitude (e f : Nat) : Nat := if e = 0 then f else (2 ^ 52 + f) * 2 ^ (e - 1)

theorem f64Magnitude_lt {e f e' f' : Nat} (hf : f < 2 ^ 52) (h : e < e') : f64Magnitude e f < f64Magnitude e' f' := by
  obtain ⟨k, rfl⟩ : ∃ k, e' = k + 1 := ⟨e' - 1, by omega⟩
  have hlow : 2 ^ 52 * 2 ^ k ≤ f64Magnitude (k + 1) f' := Nat.mul_le_mul_right _ (by omega)
  refine lt_of_lt_of_le ?_ hlow
  cases e with
  | zero => exact hf.trans_le (Nat.le_mul_of_pos_right _ (Nat.two_pow_pos k))
  | succ j => calc
      (2 ^ 52 + f) * 2 ^ j < 2 ^ 52 * 2 ^ (j + 1) := by
        rw [pow_succ 2 j, mul_comm (2 ^ j), ← mul_assoc]
        exact Nat.mul_lt_mul_of_pos_right (by omega) (Nat.two_pow_pos j)
      _ ≤ 2 ^ 52 * 2 ^ k := Nat.mul_le_mul_left _ (Nat.pow_le_pow_right (by decide) (by omega))

theorem f64Magnitude_injective {e f e' f' : Nat} (hf : f < 2 ^ 52) (hf' : f' < 2 ^ 52)
    (h : f64Magnitude e f = f64Magnitude e' f') : e = e' ∧ f = f' := by
  obtain hlt | rfl | hgt := lt_trichotomy e e'
  · exact absurd h (f64Magnitude_lt hf hlt).ne
  · refine ⟨rfl, ?_⟩
    cases e with
    | zero => exact h
    | succ j => exact Nat.add_left_cancel (Nat.eq_of_mul_eq_mul_right (Nat.two_pow_pos j) h)
  · exact absurd h (f64Magnitude_lt hf' hgt).ne'

/-- The three fields of a binary64 are all its bits. -/
theorem f64_toNat (x : F64) : x.toNat =
    (x.getLsbD 63).toNat * 2 ^ 63 + (x.extractLsb' 52 11).toNat * 2 ^ 52 + (x.extractLsb' 0 52).toNat := by
  have hlt := x.isLt
  have hsign : (x.getLsbD 63).toNat = x.toNat / 2 ^ 63 := by
    rw [BitVec.getLsbD, Nat.testBit_eq_decide_div_mod_eq]
    obtain h | h : x.toNat / 2 ^ 63 = 0 ∨ x.toNat / 2 ^ 63 = 1 := by omega
    · rw [h]
      rfl
    · rw [h]
      rfl
  rw [hsign, BitVec.extractLsb'_toNat, BitVec.extractLsb'_toNat, Nat.shiftRight_eq_div_pow, Nat.shiftRight_zero]
  omega

/-- A magnitude with its sign bit. -/
def signedBy (negative : Bool) (m : Nat) : Int := if negative then -(m : Int) else m

theorem signedBy_mul_two_pow (negative : Bool) (m k : Nat) :
    (signedBy negative (m * 2 ^ k) : Rat) = signedBy negative m * 2 ^ k := by
  cases negative <;> simp [signedBy]

/-- Sign and magnitude follow from the number, but for a negative zero. -/
theorem signedBy_injective {a b : Bool} {m n : Nat} (hm : a = true → m ≠ 0) (hn : b = true → n ≠ 0)
    (h : signedBy a m = signedBy b n) : a = b ∧ m = n := by
  cases a <;> cases b <;> simp [signedBy] at h hm hn ⊢ <;> omega

/-- The number of units that the fields of a binary64 give. -/
def f64Units (x : F64) : Int :=
  signedBy (x.getLsbD 63) (f64Magnitude (x.extractLsb' 52 11).toNat (x.extractLsb' 0 52).toNat)

theorem dyadicRat_of_f64Value {x : F64} {d : DyadicNumber} (h : f64Value x = .finite d) :
    dyadicRat d = (f64Units x : Rat) / 2 ^ 1074 := by
  have hscale {a b k : Nat} (hk : k + b = a) (m : Rat) : m / 2 ^ k = m * 2 ^ b / 2 ^ a := by
    rw [← hk, pow_add, mul_div_mul_right _ _ (by positivity)]
  simp only [f64Value] at h
  simp only [f64Units, f64Magnitude]
  generalize (x.extractLsb' 52 11).toNat = e at *
  generalize (x.extractLsb' 0 52).toNat = f at *
  generalize x.getLsbD 63 = negative at *
  by_cases hspecial : e = 2047
  · rw [if_pos hspecial] at h
    split_ifs at h
  rw [if_neg hspecial] at h
  by_cases hsub : e = 0
  · rw [if_pos hsub] at h ⊢
    obtain rfl := F64Value.finite.inj h
    rfl
  rw [if_neg hsub] at h ⊢
  by_cases hsmall : e < 1075
  · rw [if_pos hsmall] at h
    obtain rfl := F64Value.finite.inj h
    have hexp : 1075 - e + (e - 1) = 1074 := by omega
    rw [dyadicRat, hscale hexp, signedBy_mul_two_pow]
    rfl
  · rw [if_neg hsmall] at h
    obtain rfl := F64Value.finite.inj h
    have hpow : e - 1 = e - 1075 + 1074 := by omega
    rw [dyadicRat, hscale (Nat.zero_add 1074), hpow, pow_add, ← mul_assoc, signedBy_mul_two_pow]
    rfl

/-- Two binary64 of one value are the same bits: only zero has two, and -0.0 is excluded. -/
theorem isF64Of_unique {v w : F64} {q : Rat} (hv : isF64Of v q) (hw : isF64Of w q) : v = w := by
  obtain ⟨⟨d, hd, hq⟩, hv0⟩ := hv
  obtain ⟨⟨d', hd', hq'⟩, hw0⟩ := hw
  have hunits : f64Units v = f64Units w := by
    rw [dyadicRat_of_f64Value hd] at hq
    rw [dyadicRat_of_f64Value hd', ← hq] at hq'
    exact_mod_cast ((div_left_inj' (by positivity)).1 hq').symm
  have hzero {x : F64} (hx : x ≠ 0x8000000000000000) (hsign : x.getLsbD 63 = true) :
      f64Magnitude (x.extractLsb' 52 11).toNat (x.extractLsb' 0 52).toNat ≠ 0 := by
    intro hmag
    have hzeros : f64Magnitude 0 0 = 0 := rfl
    obtain ⟨he, hf⟩ := f64Magnitude_injective (x.extractLsb' 0 52).isLt (by decide) (hmag.trans hzeros.symm)
    refine hx (BitVec.eq_of_toNat_eq ?_)
    rw [f64_toNat, he, hf, hsign]
    rfl
  obtain ⟨hsign, hmag⟩ := signedBy_injective (hzero hv0) (hzero hw0) hunits
  obtain ⟨he, hf⟩ := f64Magnitude_injective (v.extractLsb' 0 52).isLt (w.extractLsb' 0 52).isLt hmag
  exact BitVec.eq_of_toNat_eq (by rw [f64_toNat v, f64_toNat w, hsign, he, hf])

theorem be64_injective {x y : BitVec 64} (h : be64 x = be64 y) : x = y := by
  simp only [be64, List.cons.injEq, and_true] at h
  obtain ⟨h7, h6, h5, h4, h3, h2, h1, h0⟩ := h
  rw [← ofBe64_be64 x, ← ofBe64_be64 y, h7, h6, h5, h4, h3, h2, h1, h0]

/-! ## The decode as a division of the signed word (R233) -/

/-- The two bytes as a signed 16-bit number. -/
def signedWord (hi lo : Byte) : Int := (hi ++ lo : BitVec 16).toInt

theorem signedWord_eq (hi lo : Byte) :
    signedWord hi lo = signedCode 16 hi.msb (hi.toNat * 256 + lo.toNat) := by
  have hhi := hi.isLt
  have hlo := lo.isLt
  have hword : (hi ++ lo : BitVec 16).toNat = hi.toNat * 256 + lo.toNat := by
    rw [BitVec.toNat_append, ← Nat.shiftLeft_add_eq_or_of_lt hlo, Nat.shiftLeft_eq]
  rw [signedWord, BitVec.toInt_eq_toNat_cond, hword, signedCode_msb]
  split_ifs <;> omega

theorem decodeA_raw_eq_ediv (ext : Bool) (hi lo : Byte) :
    (decodeA ext hi lo).raw = signedWord hi lo / 2 ^ (4 - ext.toNat) := by
  rw [decodeA_raw, signedWord_eq, signedCode_msb, signedCode_msb]
  cases ext
  · simp only [Bool.toNat_false]; omega
  · simp only [Bool.toNat_true]; omega

theorem decodeB_raw_eq_ediv (r : Resolution) (hi lo : Byte) :
    (decodeB r hi lo).raw = signedWord hi lo / 2 ^ (16 - resBits r) := by
  rw [decodeB_raw, signedWord_eq, signedCode_msb, signedCode_msb]
  cases r <;> simp only [resBits] <;> omega

theorem floor_div_two_pow (n : Int) (k : Nat) : ⌊(n : Rat) / 2 ^ k⌋ = n / 2 ^ k := by
  have h := Rat.floor_intCast_div_natCast n (2 ^ k)
  push_cast at h
  exact h

theorem decodeA_raw_neg_iff (ext : Bool) (hi lo : Byte) : (decodeA ext hi lo).raw < 0 ↔ 128 ≤ hi.toNat := by
  have hhi := hi.isLt
  have hlo := lo.isLt
  rw [decodeA_raw, signedCode_msb]
  cases ext
  · simp only [Bool.toNat_false]; omega
  · simp only [Bool.toNat_true]; omega

theorem decodeB_raw_neg_iff (r : Resolution) (hi lo : Byte) : (decodeB r hi lo).raw < 0 ↔ 128 ≤ hi.toNat := by
  have hhi := hi.isLt
  have hlo := lo.isLt
  rw [decodeB_raw, signedCode_msb]
  cases r <;> simp only [resBits] <;> omega

theorem decodeA_celsius (ext : Bool) (hi lo : Byte) :
    (decodeA ext hi lo).value.celsius = ((decodeA ext hi lo).raw : Rat) / 16 := rfl

theorem decodeA_ext {ext : Bool} {hi lo hi' lo' : Byte} (h : (decodeA ext hi lo).raw = (decodeA ext hi' lo').raw) :
    decodeA ext hi lo = decodeA ext hi' lo' :=
  congrArg (fun n => Reading.mk n ⟨n⟩) h

theorem decodeB_ext {r : Resolution} {hi lo hi' lo' : Byte} (h : (decodeB r hi lo).raw = (decodeB r hi' lo').raw) :
    decodeB r hi lo = decodeB r hi' lo' :=
  congrArg (fun n => Reading.mk n ⟨n * 2 ^ (12 - resBits r)⟩) h

/-! ## Codes and their two bytes (R222, R228) -/

theorem and_mask_eq_mod (m : Nat) : m &&& 0xFF = m % 2 ^ 8 := Nat.and_two_pow_sub_one_eq_mod m 8

/-- The low byte of a packed code: the code's low bits, and the mode bit below them. -/
theorem packA_snd_toNat (ext : Bool) (n : Int) : (packA ext n).2.toNat =
    (n % 2 ^ (12 + ext.toNat)).toNat % 2 ^ (4 + ext.toNat) * 2 ^ (4 - ext.toNat) + ext.toNat := by
  simp only [packA]
  generalize (n % 2 ^ (12 + ext.toNat)).toNat = u
  have hlow : u <<< (4 - ext.toNat) &&& 0xFF = (u % 2 ^ (4 + ext.toNat)) <<< (4 - ext.toNat) := by
    rw [and_mask_eq_mod, Nat.shiftLeft_eq, Nat.shiftLeft_eq]
    cases ext
    · simp only [Bool.toNat_false]; omega
    · simp only [Bool.toNat_true]; omega
  rw [hlow, ← Nat.shiftLeft_add_eq_or_of_lt (by cases ext <;> decide), Nat.shiftLeft_eq, BitVec.toNat_ofNat]
  cases ext
  · simp only [Bool.toNat_false]; omega
  · simp only [Bool.toNat_true]; omega

theorem packA_snd_mod (ext : Bool) (n : Int) : (packA ext n).2.toNat % 2 ^ (4 - ext.toNat) = ext.toNat := by
  rw [packA_snd_toNat, Nat.mul_add_mod_self_right]
  cases ext <;> rfl

/-- Packing is the inverse of a decode wherever the low byte's discarded bits are the mode's. -/
theorem packA_decodeA {ext : Bool} {hi lo : Byte} (h : lo.toNat % 2 ^ (4 - ext.toNat) = ext.toNat) :
    packA ext (decodeA ext hi lo).raw = (hi, lo) := by
  have hhi := hi.isLt
  have hlo := lo.isLt
  refine Prod.ext (BitVec.eq_of_toNat_eq ?_) (BitVec.eq_of_toNat_eq ?_)
  · rw [packA_fst_toNat, decodeA_raw, signedCode_msb]
    cases ext
    · simp only [Bool.toNat_false] at *; omega
    · simp only [Bool.toNat_true] at *; omega
  · rw [packA_snd_toNat, decodeA_raw, signedCode_msb]
    cases ext
    · simp only [Bool.toNat_false] at *; omega
    · simp only [Bool.toNat_true] at *; omega

theorem packB_fst_toNat (r : Resolution) (n : Int) :
    (packB r n).1.toNat = (n % 2 ^ resBits r).toNat / 2 ^ (resBits r - 8) := by
  simp only [packB, BitVec.toNat_ofNat, Nat.shiftRight_eq_div_pow, Nat.shiftLeft_eq]
  cases r <;> simp only [resBits] <;> omega

theorem packB_snd_toNat (r : Resolution) (n : Int) : (packB r n).2.toNat =
    (n % 2 ^ resBits r).toNat % 2 ^ (resBits r - 8) * 2 ^ (16 - resBits r) := by
  simp only [packB, and_mask_eq_mod, BitVec.toNat_ofNat, Nat.shiftLeft_eq]
  cases r <;> simp only [resBits] <;> omega

theorem packB_snd_mod (r : Resolution) (n : Int) : (packB r n).2.toNat % 2 ^ (16 - resBits r) = 0 := by
  rw [packB_snd_toNat, Nat.mul_mod_left]

theorem packB_decodeB {r : Resolution} {hi lo : Byte} (h : lo.toNat % 2 ^ (16 - resBits r) = 0) :
    packB r (decodeB r hi lo).raw = (hi, lo) := by
  have hhi := hi.isLt
  have hlo := lo.isLt
  refine Prod.ext (BitVec.eq_of_toNat_eq ?_) (BitVec.eq_of_toNat_eq ?_)
  · rw [packB_fst_toNat, decodeB_raw, signedCode_msb]
    cases r <;> simp only [resBits] at * <;> omega
  · rw [packB_snd_toNat, decodeB_raw, signedCode_msb]
    cases r <;> simp only [resBits] at * <;> omega

/-- A code that fits its width survives packing. -/
theorem decodeB_packB {r : Resolution} {n : Int} (hlow : -2 ^ (resBits r - 1) ≤ n) (hhigh : n < 2 ^ (resBits r - 1)) :
    (decodeB r (packB r n).1 (packB r n).2).raw = n := by
  rw [decodeB_raw, packB_snd_toNat, signedCode_msb, packB_fst_toNat]
  cases r <;> simp only [resBits] at * <;> omega

theorem decodeA_raw_mem (ext : Bool) (hi lo : Byte) :
    -2 ^ (11 + ext.toNat) ≤ (decodeA ext hi lo).raw ∧ (decodeA ext hi lo).raw < 2 ^ (11 + ext.toNat) := by
  have hhi := hi.isLt
  have hlo := lo.isLt
  rw [decodeA_raw, signedCode_msb]
  cases ext
  · simp only [Bool.toNat_false]; omega
  · simp only [Bool.toNat_true]; omega

theorem decodeB_raw_mem (r : Resolution) (hi lo : Byte) :
    -2 ^ (resBits r - 1) ≤ (decodeB r hi lo).raw ∧ (decodeB r hi lo).raw < 2 ^ (resBits r - 1) := by
  have hhi := hi.isLt
  have hlo := lo.isLt
  rw [decodeB_raw, signedCode_msb]
  cases r <;> simp only [resBits] <;> omega

/-! ## Encodes as codes (R222 to R224, R228) -/

theorem topCode_of_le {policy : EncTop} {w : Nat} {n : Int} (h : n < 2 ^ (w - 1)) : topCode policy w n = n :=
  if_neg (by omega)

theorem topCode_saturate (w : Nat) (n : Int) : topCode .saturate w n = min n (2 ^ (w - 1) - 1) := by
  rw [topCode, min_def]
  split_ifs <;> omega

theorem topCode_saturate_mono {w : Nat} {m n : Int} (h : m ≤ n) :
    topCode .saturate w m ≤ topCode .saturate w n := by
  rw [topCode_saturate, topCode_saturate]
  exact min_le_min_right _ h

theorem truncRat_mono {p q : Rat} (h : p ≤ q) : truncRat p ≤ truncRat q := by
  obtain hp | hp := le_total 0 p
  · rw [truncRat_of_nonneg hp, truncRat_of_nonneg (hp.trans h)]
    exact Int.floor_mono h
  obtain hq | hq := le_total 0 q
  · rw [truncRat_of_nonpos hp, truncRat_of_nonneg hq]
    exact (Int.ceil_le.2 (by simpa using hp)).trans (Int.floor_nonneg.2 hq)
  · rw [truncRat_of_nonpos hp, truncRat_of_nonpos hq]
    exact Int.ceil_mono h

theorem truncRat_intCast (n : Int) : truncRat n = n := by
  simp [truncRat]

section

variable {lo hi a b : Rat} {v w : F64Value}

theorem clampedValue_mem (hle : lo ≤ hi) (h : clampedValue lo hi v = some a) : lo ≤ a ∧ a ≤ hi := by
  match v with
  | .infinite true => obtain rfl := Option.some.inj h; exact ⟨le_rfl, hle⟩
  | .infinite false => obtain rfl := Option.some.inj h; exact ⟨hle, le_rfl⟩
  | .finite d =>
    obtain rfl := Option.some.inj h
    exact ⟨le_min (le_max_right _ _) hle, min_le_right _ _⟩

theorem clampedValue_mono (hle : lo ≤ hi) (h : numericLe v w) (ha : clampedValue lo hi v = some a)
    (hb : clampedValue lo hi w = some b) : a ≤ b := by
  match v, w with
  | .infinite true, _ =>
    obtain rfl := Option.some.inj ha
    exact (clampedValue_mem hle hb).1
  | _, .infinite false =>
    obtain rfl := Option.some.inj hb
    exact (clampedValue_mem hle ha).2
  | .finite d, .finite e =>
    obtain rfl := Option.some.inj ha
    obtain rfl := Option.some.inj hb
    exact min_le_min_right _ (max_le_max_right _ h)

end

section

variable {policy : EncTop} {ext : Bool} {r : Resolution} {x : F64} {p : Byte × Byte}

theorem truncRat_mul_ge {a : Rat} {n : Int} {k : Nat} (h : (n : Rat) ≤ a) : n * 2 ^ k ≤ truncRat (a * 2 ^ k) := by
  have hscaled : ((n * 2 ^ k : Int) : Rat) ≤ a * 2 ^ k := by
    push_cast
    exact mul_le_mul_of_nonneg_right h (by positivity)
  have hmono := truncRat_mono hscaled
  rwa [truncRat_intCast] at hmono

theorem exists_encodeA (h : encodeA policy ext x = some p) : ∃ a, clampedValue (-55) (highA ext) (f64Value x) = some a ∧
    -55 ≤ a ∧ p = packA ext (topCode policy (12 + ext.toNat) (truncRat (a * 16))) := by
  have hnan : ¬ isNaN x := by
    intro hnan
    rw [encodeA_nan hnan] at h
    cases h
  obtain ⟨a, ha⟩ := exists_clampedValue (-55) (highA ext) hnan
  rw [encodeA_eq ha] at h
  have hle : (-55 : Rat) ≤ highA ext := by cases ext <;> norm_num [highA]
  exact ⟨a, ha, (clampedValue_mem hle ha).1, (Option.some.inj h).symm⟩

theorem exists_encodeB (h : encodeB policy r x = some p) : ∃ a, clampedValue (-55) 128 (f64Value x) = some a ∧
    -55 ≤ a ∧ p = packB r (topCode policy (resBits r) (truncRat (a * 2 ^ (resBits r - 8)))) := by
  have hnan : ¬ isNaN x := by
    intro hnan
    rw [encodeB_nan hnan] at h
    cases h
  obtain ⟨a, ha⟩ := exists_clampedValue (-55) 128 hnan
  rw [encodeB_eq ha] at h
  exact ⟨a, ha, (clampedValue_mem (by norm_num) ha).1, (Option.some.inj h).symm⟩

/-- A saturated code survives the two bytes, whatever the clamped value. -/
theorem decodeA_packA_saturated {a : Rat} (h : -55 ≤ a) :
    (decodeA ext (packA ext (topCode .saturate (12 + ext.toNat) (truncRat (a * 16)))).1
      (packA ext (topCode .saturate (12 + ext.toNat) (truncRat (a * 16)))).2).raw =
      topCode .saturate (12 + ext.toNat) (truncRat (a * 16)) := by
  have hcode : -55 * 2 ^ 4 ≤ truncRat (a * 2 ^ 4) := truncRat_mul_ge (by exact_mod_cast h)
  have hsixteen : (2 : Rat) ^ 4 = 16 := by norm_num
  rw [hsixteen] at hcode
  generalize truncRat (a * 16) = n at *
  rw [topCode_saturate]
  refine decodeA_packA (le_min ?_ ?_) ?_
  all_goals cases ext
  all_goals simp only [Bool.toNat_false, Bool.toNat_true] at *; omega

theorem decodeB_packB_saturated {a : Rat} (h : -55 ≤ a) :
    (decodeB r (packB r (topCode .saturate (resBits r) (truncRat (a * 2 ^ (resBits r - 8))))).1
      (packB r (topCode .saturate (resBits r) (truncRat (a * 2 ^ (resBits r - 8))))).2).raw =
      topCode .saturate (resBits r) (truncRat (a * 2 ^ (resBits r - 8))) := by
  have hcode : -55 * 2 ^ (resBits r - 8) ≤ truncRat (a * 2 ^ (resBits r - 8)) := truncRat_mul_ge (by exact_mod_cast h)
  generalize truncRat (a * 2 ^ (resBits r - 8)) = n at *
  rw [topCode_saturate]
  refine decodeB_packB (le_min ?_ ?_) ?_
  all_goals cases r
  all_goals simp only [resBits] at *; omega

end

/-! ## Decode, then encode (R226, R229) -/

/-- The canonical pairs of variant A, by the code. -/
theorem canonicalA_iff (ext : Bool) (hi lo : Byte) : canonicalA ext hi lo ↔
    lo.toNat % 2 ^ (4 - ext.toNat) = ext.toNat ∧
      -55 * 2 ^ 4 ≤ (decodeA ext hi lo).raw ∧ (decodeA ext hi lo).raw ≤ encodeHighA ext * 2 ^ 4 := by
  have hlow : -55 ≤ (decodeA ext hi lo).value.celsius ↔ -55 * 2 ^ 4 ≤ (decodeA ext hi lo).raw := by
    rw [decodeA_celsius, le_div_iff₀ (by norm_num)]
    norm_num
    exact_mod_cast Iff.rfl
  have hhigh : (decodeA ext hi lo).value.celsius ≤ highA ext ↔ (decodeA ext hi lo).raw ≤ encodeHighA ext * 2 ^ 4 := by
    rw [decodeA_celsius, highA_eq, div_le_iff₀ (by norm_num)]
    norm_num
    exact_mod_cast Iff.rfl
  rw [canonicalA, hlow, hhigh]
  cases ext <;> rfl

theorem canonicalB_iff (r : Resolution) (hi lo : Byte) : canonicalB r hi lo ↔
    lo.toNat % 2 ^ (16 - resBits r) = 0 ∧ -55 * 2 ^ (resBits r - 8) ≤ (decodeB r hi lo).raw := by
  have hlow : -55 ≤ (decodeB r hi lo).value.celsius ↔ -55 * 2 ^ (resBits r - 8) ≤ (decodeB r hi lo).raw := by
    rw [decodeB_celsius, le_div_iff₀ (by positivity)]
    exact_mod_cast Iff.rfl
  rw [canonicalB, hlow]

/-- The code of a decoded variant-A temperature, clamped to the encode range. -/
def clampedCodeA (ext : Bool) (hi lo : Byte) : Int :=
  min (max (decodeA ext hi lo).raw (-55 * 2 ^ 4)) (encodeHighA ext * 2 ^ 4)

/-- A decoded temperature is clamped, its code then fits, and truncation and the top change nothing. -/
theorem encodeA_of_isF64Of {policy : EncTop} {ext : Bool} {hi lo : Byte} {v : F64}
    (h : isF64Of v (decodeA ext hi lo).value.celsius) :
    encodeA policy ext v = some (packA ext (clampedCodeA ext hi lo)) := by
  obtain ⟨⟨d, hd, hq⟩, -⟩ := h
  have hclamped : clampedValue (-55) (highA ext) (f64Value v) = some ((clampedCodeA ext hi lo : Rat) / 16) := by
    rw [hd, clampedValue, hq, decodeA_celsius, highA_eq, clampedCodeA]
    push_cast
    rw [← min_div_div_right (by norm_num), ← max_div_div_right (by norm_num)]
    norm_num
  rw [encodeA_eq hclamped, div_mul_cancel₀ _ (by norm_num), truncRat_intCast, topCode_of_le]
  have hraw := (decodeA_raw_mem ext hi lo).2
  cases ext
  · simp only [clampedCodeA, Bool.toNat_false] at *; omega
  · simp only [clampedCodeA, encodeHighA, if_true, Bool.toNat_true] at *; omega

theorem decodeA_clampedCodeA (ext : Bool) (hi lo : Byte) :
    (decodeA ext (packA ext (clampedCodeA ext hi lo)).1 (packA ext (clampedCodeA ext hi lo)).2).raw =
      clampedCodeA ext hi lo := by
  have hraw := (decodeA_raw_mem ext hi lo).2
  refine decodeA_packA ?_ ?_
  all_goals cases ext
  all_goals
    simp only [clampedCodeA, encodeHighA, if_true, Bool.false_eq_true, if_false, Bool.toNat_false,
      Bool.toNat_true] at *
    omega

theorem canonicalA_packA_clampedCodeA (ext : Bool) (hi lo : Byte) :
    canonicalA ext (packA ext (clampedCodeA ext hi lo)).1 (packA ext (clampedCodeA ext hi lo)).2 := by
  rw [canonicalA_iff, decodeA_clampedCodeA, clampedCodeA]
  have hle : (-55 * 2 ^ 4 : Int) ≤ encodeHighA ext * 2 ^ 4 := by cases ext <;> decide
  exact ⟨packA_snd_mod ext _, le_min (le_max_right _ _) hle, min_le_right _ _⟩

theorem packA_clampedCodeA_eq_iff {ext : Bool} {hi lo : Byte} :
    packA ext (clampedCodeA ext hi lo) = (hi, lo) ↔ canonicalA ext hi lo := by
  constructor
  · intro h
    have hcanonical := canonicalA_packA_clampedCodeA ext hi lo
    rwa [h] at hcanonical
  · rw [canonicalA_iff]
    rintro ⟨hmode, hlow, hhigh⟩
    rw [clampedCodeA, max_eq_left hlow, min_eq_left hhigh, packA_decodeA hmode]

/-- The code of a decoded variant-B temperature, clamped to the encode range: all codes are below its upper end. -/
def clampedCodeB (r : Resolution) (hi lo : Byte) : Int := max (decodeB r hi lo).raw (-55 * 2 ^ (resBits r - 8))

theorem clampedCodeB_mem (r : Resolution) (hi lo : Byte) :
    -2 ^ (resBits r - 1) ≤ clampedCodeB r hi lo ∧ clampedCodeB r hi lo < 2 ^ (resBits r - 1) := by
  obtain ⟨hlow, hhigh⟩ := decodeB_raw_mem r hi lo
  exact ⟨hlow.trans (le_max_left _ _), max_lt hhigh (by cases r <;> decide)⟩

theorem two_pow_resBits_sub_one (r : Resolution) : (2 : Int) ^ (resBits r - 1) = 128 * 2 ^ (resBits r - 8) := by
  cases r <;> decide

theorem encodeB_of_isF64Of {policy : EncTop} {r : Resolution} {hi lo : Byte} {v : F64}
    (h : isF64Of v (decodeB r hi lo).value.celsius) :
    encodeB policy r v = some (packB r (clampedCodeB r hi lo)) := by
  obtain ⟨⟨d, hd, hq⟩, -⟩ := h
  obtain ⟨-, htop⟩ := clampedCodeB_mem r hi lo
  have hpos : (0 : Rat) < 2 ^ (resBits r - 8) := by positivity
  have hmax : max (decodeB r hi lo).value.celsius (-55) = (clampedCodeB r hi lo : Rat) / 2 ^ (resBits r - 8) := by
    rw [decodeB_celsius, clampedCodeB]
    push_cast
    rw [← max_div_div_right hpos.le, mul_div_cancel_right₀ _ hpos.ne']
  have hbelow : (clampedCodeB r hi lo : Rat) / 2 ^ (resBits r - 8) ≤ 128 := by
    rw [div_le_iff₀ hpos]
    exact_mod_cast (two_pow_resBits_sub_one r ▸ htop).le
  have hclamped : clampedValue (-55) 128 (f64Value v) = some ((clampedCodeB r hi lo : Rat) / 2 ^ (resBits r - 8)) := by
    rw [hd, clampedValue, hq, hmax, min_eq_left hbelow]
  rw [encodeB_eq hclamped, div_mul_cancel₀ _ hpos.ne', truncRat_intCast, topCode_of_le htop]

theorem packB_clampedCodeB_eq_iff {r : Resolution} {hi lo : Byte} :
    packB r (clampedCodeB r hi lo) = (hi, lo) ↔ canonicalB r hi lo := by
  rw [canonicalB_iff]
  constructor
  · intro h
    have hbits := packB_snd_mod r (clampedCodeB r hi lo)
    obtain ⟨hlow, hhigh⟩ := clampedCodeB_mem r hi lo
    have hcode := decodeB_packB hlow hhigh
    rw [h] at hbits hcode
    exact ⟨hbits, hcode ▸ le_max_right _ _⟩
  · rintro ⟨hbits, hlow⟩
    rw [clampedCodeB, max_eq_left hlow, packB_decodeB hbits]

/-! ## Encode, then decode, in variant B (R229) -/

theorem truncRat_lt {q : Rat} {n : Int} (hn : 0 < n) (h : q < n) : truncRat q < n := by
  obtain hq | hq := le_total 0 q
  · rw [truncRat_of_nonneg hq]
    exact Int.floor_lt.2 h
  · rw [truncRat_of_nonpos hq]
    exact (Int.ceil_le.2 (by simpa using hq)).trans_lt hn

/-- Saturation at the top acts on one temperature of the range: 128. -/
theorem topCode_saturate_truncRat_resBits (r : Resolution) {q : Rat} (h : q ≤ 128) :
    topCode .saturate (resBits r) (truncRat (q * 2 ^ (resBits r - 8))) =
      if q = 128 then 2 ^ (resBits r - 1) - 1 else truncRat (q * 2 ^ (resBits r - 8)) := by
  have hpow : (128 : Rat) * 2 ^ (resBits r - 8) = ((2 ^ (resBits r - 1) : Int) : Rat) := by
    rw [two_pow_resBits_sub_one]
    push_cast
    rfl
  split_ifs with htop
  · rw [htop, hpow, truncRat_intCast, topCode_saturate]
    omega
  · refine topCode_of_le (truncRat_lt (by positivity) ?_)
    rw [← hpow]
    exact mul_lt_mul_of_pos_right (lt_of_le_of_ne h htop) (by positivity)

end Sys2Proof.Machine

/-! ## The five statements -/

section

open Sys2Proof Sys2Proof.Machine

/-- Settles O27: the encode packs the clamped code, whose pair is canonical and decodes to it. -/
theorem bytePairRoundTripA : Obligations.BytePairRoundTripA := by
  unfold Obligations.BytePairRoundTripA
  intro hi lo ext raw v s hdecode
  rw [exec_tcDecodeA hi lo (extOf_boolByte ext)] at hdecode
  obtain ⟨-, hbytes⟩ := respond_inj (Host.Outcome.next.inj hdecode)
  have hbytes' : be16 (decodeA ext hi lo).raw ++ be64 (f64OfTemp (decodeA ext hi lo).value) = be16 raw ++ be64 v :=
    (List.cons.inj hbytes).2
  have hv : f64OfTemp (decodeA ext hi lo).value = v :=
    be64_injective (List.append_inj hbytes' rfl).2
  have hexact : isF64Of v (decodeA ext hi lo).value.celsius :=
    hv ▸ isF64Of_of_tempInRange (tempInRange_decodeA ext hi lo)
  have hencode := exec_tcEncodeA (s := s) (extOf_boolByte ext) (encodeA_of_isF64Of hexact)
  rw [hencode]
  refine ⟨?iff, _, _, rfl, canonicalA_packA_clampedCodeA ext hi lo, ?value⟩
  case iff =>
    rw [← packA_clampedCodeA_eq_iff]
    constructor
    · intro h
      obtain ⟨-, hpair⟩ := respond_inj (Host.Outcome.next.inj h)
      simp only [List.cons.injEq, true_and, and_true] at hpair
      exact Prod.ext hpair.1 hpair.2
    · intro h
      rw [h]
  case value =>
    rw [decodeA_celsius, decodeA_celsius, decodeA_clampedCodeA, clampedCodeA, highA_eq]
    push_cast
    rw [← min_div_div_right (by norm_num), ← max_div_div_right (by norm_num)]
    norm_num

/-- Settles O28: 128 alone meets the saturation at the top, and a decoded value's code is clamped at the lower end
alone. -/
theorem roundTripsB : Obligations.RoundTripsB := by
  unfold Obligations.RoundTripsB
  refine ⟨fun x d r hx hlow hhigh => ?_, fun hi lo r v policy hv => ?_⟩
  · have hencode := encodeB_eq (policy := .saturate) (r := r) (hx ▸ clampedValue_of_mem hlow hhigh)
    have hpos : (0 : Rat) < 2 ^ (resBits r - 8) := by positivity
    refine ⟨_, hencode, ?_⟩
    rw [decodeB_celsius, decodeB_packB_saturated hlow, topCode_saturate_truncRat_resBits r hhigh]
    split_ifs with htop
    · have hcode : ((2 ^ (resBits r - 1) - 1 : Int) : Rat) / 2 ^ (resBits r - 8) = 128 - 1 / 2 ^ (resBits r - 8) := by
        rw [two_pow_resBits_sub_one]
        push_cast
        rw [sub_div, mul_div_cancel_right₀ _ hpos.ne']
      refine ⟨by push_cast; rfl, ?_⟩
      rw [hcode, htop, sub_sub_cancel_left, abs_neg, abs_of_pos (by positivity)]
    · have hnear := (abs_truncRat_sub_lt (dyadicRat d * 2 ^ (resBits r - 8))).le
      have hscale : (truncRat (dyadicRat d * 2 ^ (resBits r - 8)) : Rat) / 2 ^ (resBits r - 8) - dyadicRat d =
          (truncRat (dyadicRat d * 2 ^ (resBits r - 8)) - dyadicRat d * 2 ^ (resBits r - 8)) /
            2 ^ (resBits r - 8) := by
        rw [sub_div, mul_div_cancel_right₀ _ hpos.ne']
      refine ⟨rfl, ?_⟩
      rw [hscale, abs_div, abs_of_pos hpos]
      exact div_le_div_of_nonneg_right hnear hpos.le
  · rw [encodeB_of_isF64Of hv, Option.some_inj, packB_clampedCodeB_eq_iff]

/-- Settles O30: both decodes divide the signed word, rounding down. -/
theorem decodeIsArithmeticShift : Obligations.DecodeIsArithmeticShift := by
  unfold Obligations.DecodeIsArithmeticShift
  intro hi lo hi' lo'
  refine ⟨fun ext => ⟨?_, ?_, fun h => ?_, fun h => decodeA_ext ?_, ?_⟩,
    fun r => ⟨?_, ?_, fun h => ?_, fun h => decodeB_ext ?_, ?_⟩⟩
  · exact (decodeA_raw_eq_ediv ext hi lo).trans (floor_div_two_pow _ _).symm
  · rw [decodeA_celsius, div_lt_iff₀ (by norm_num), zero_mul, Int.cast_lt_zero, decodeA_raw_neg_iff]
  · rw [decodeA_celsius, decodeA_celsius, div_le_div_iff_of_pos_right (by norm_num), Int.cast_le,
      decodeA_raw_eq_ediv, decodeA_raw_eq_ediv]
    exact Int.ediv_le_ediv (by positivity) h
  · rw [decodeA_raw, decodeA_raw, h]
  · rw [decodeA_celsius, decodeA_raw_eq_ediv, ← floor_div_two_pow]
    congr 3
    cases ext
    · norm_num [signedWord]; ring
    · norm_num [signedWord]; ring
  · exact (decodeB_raw_eq_ediv r hi lo).trans (floor_div_two_pow _ _).symm
  · rw [decodeB_celsius, div_lt_iff₀ (by positivity), zero_mul, Int.cast_lt_zero, decodeB_raw_neg_iff]
  · rw [decodeB_celsius, decodeB_celsius, div_le_div_iff_of_pos_right (by positivity), Int.cast_le,
      decodeB_raw_eq_ediv, decodeB_raw_eq_ediv]
    exact Int.ediv_le_ediv (by positivity) h
  · rw [decodeB_raw, decodeB_raw, h]
  · rw [decodeB_celsius, decodeB_raw_eq_ediv, ← floor_div_two_pow]
    congr 3
    cases r <;> norm_num [signedWord, resBits] <;> ring

/-- Settles O31: clamp, truncation and the saturated top are monotone, and the code survives the two bytes. -/
theorem encodeIsMonotone : Obligations.EncodeIsMonotone := by
  unfold Obligations.EncodeIsMonotone
  intro x y p q
  refine ⟨fun ext hp => ?_, fun r hp => ?_⟩
  · obtain ⟨a, ha, halow, rfl⟩ := exists_encodeA hp
    refine ⟨?_, fun hq hle => ?_⟩
    · have hmode := packA_snd_mod ext (topCode .saturate (12 + ext.toNat) (truncRat (a * 16)))
      cases ext <;> exact hmode
    · obtain ⟨b, hb, hblow, rfl⟩ := exists_encodeA hq
      have hrange : (-55 : Rat) ≤ highA ext := by cases ext <;> norm_num [highA]
      rw [decodeA_packA_saturated halow, decodeA_packA_saturated hblow]
      refine topCode_saturate_mono (truncRat_mono ?_)
      exact mul_le_mul_of_nonneg_right (clampedValue_mono hrange hle ha hb) (by norm_num)
  · obtain ⟨a, ha, halow, rfl⟩ := exists_encodeB hp
    refine ⟨packB_snd_mod r _, fun hq hle => ?_⟩
    obtain ⟨b, hb, hblow, rfl⟩ := exists_encodeB hq
    rw [decodeB_packB_saturated halow, decodeB_packB_saturated hblow]
    refine topCode_saturate_mono (truncRat_mono ?_)
    exact mul_le_mul_of_nonneg_right (clampedValue_mono (by norm_num) hle ha hb) (by positivity)

/-- Settles O32: the binary64 is exact in the range, and an exact one is unique. -/
theorem decodedValuesAreExact : Obligations.DecodedValuesAreExact := by
  unfold Obligations.DecodedValuesAreExact
  exact ⟨tempInRange_decodeA, tempInRange_decodeB, fun _ => isF64Of_of_tempInRange,
    fun _ _ ht hv => isF64Of_unique hv (isF64Of_of_tempInRange ht)⟩

end

/-! # SCHED.RUN (43_scheduler.md R279)

With O59. A pass of SCHED.RUN that blocked ends as a blocked SCHED.ITERATE would, because nothing between the wait and
the end of a pass looks at `loop`: every operation of a pass commutes with setting it. -/

namespace Sys2Proof.Machine

/-! ## What commutes with setting the activity of LOOP -/

/-- The state with this activity of LOOP. -/
def State.setLoop (a : Activity) (s : State) : State := { s with loop := a }

/-- The same end of an operation, in the state with this activity of LOOP. -/
def Res.setLoop {α : Type} (a : Activity) : Res α → Res α
  | .ok r s => .ok r (s.setLoop a)
  | .err e s => .err e (s.setLoop a)

section

variable (a : Activity) (s : State)

theorem elapse_setLoop : (s.setLoop a).elapse = s.elapse.setLoop a := by
  have h : (s.setLoop a).elapse = s.elapse.envFrom (s.setLoop a) := elapse_envFrom s (s.setLoop a) rfl
  rw [h, elapse_eq s]
  rfl

theorem interlude_setLoop : (s.setLoop a).interlude = s.interlude.setLoop a := by
  have h : (s.setLoop a).interlude = s.interlude.envFrom (s.setLoop a) := interlude_envFrom s (s.setLoop a) rfl
  rw [h, interlude_eq s]
  rfl

theorem settle_setLoop : (s.setLoop a).settle = s.settle.setLoop a := by
  have h : (s.setLoop a).settle = s.settle.envFrom (s.setLoop a) := settle_envFrom s (s.setLoop a) rfl
  rw [h, settle_eq s]
  rfl

theorem waitOutcome_setLoop : waitOutcome (s.setLoop a) = (waitOutcome s).map (Prod.map id (State.setLoop a)) := by
  simp only [waitOutcome, apply_ite (Option.map (Prod.map id (State.setLoop a)))]
  rfl

theorem txn_setLoop (ops : List BusOp) : txn ops (s.setLoop a) = (txn ops s).setLoop a := by
  have hdraw : (s.setLoop a).nextDraw = s.nextDraw := rfl
  obtain ⟨data, hd, ht⟩ | ⟨hb, ht⟩ := txn_cases ops s
  · rw [ht, txn_ok (hdraw ▸ hd), State.exchanged, elapse_setLoop]
    rfl
  · rw [ht, txn_failed (hdraw ▸ hb), State.exchangeFailed, elapse_setLoop]
    rfl

variable {a}

/-- A sequence keeps to the rule if what follows the first operation does. -/
theorem andThen_setLoop {α β : Type} {k : α → State → Res β} (r : Res α)
    (hk : ∀ x s, k x (s.setLoop a) = (k x s).setLoop a) :
    (r.setLoop a).andThen k = (r.andThen k).setLoop a := by
  cases r with
  | ok x s => exact hk x s
  | err e s => rfl

variable (a)

theorem regWrite_setLoop (reg v : Byte) : regWrite reg v (s.setLoop a) = (regWrite reg v s).setLoop a := by
  rw [regWrite, txn_setLoop]
  exact andThen_setLoop _ fun _ _ => rfl

theorem regRead_setLoop (reg : Byte) : regRead reg (s.setLoop a) = (regRead reg s).setLoop a := by
  rw [regRead, txn_setLoop]
  exact andThen_setLoop _ fun _ _ => rfl

/-! ### The sensor-read step (R269) -/

theorem readSensor_setLoop (i : ChannelId) : readSensor i (s.setLoop a) = (readSensor i s).setLoop a := by
  rw [readSensor, txn_setLoop]
  cases i with
  | inside => exact andThen_setLoop _ fun _ _ => rfl
  | outside => exact andThen_setLoop _ fun _ _ => rfl

theorem setRed_setLoop (on : Bool) : setRed on (s.setLoop a) = (setRed on s).setLoop a := by
  unfold setRed
  rw [apply_ite (Res.setLoop a)]
  exact if_congr Iff.rfl (regWrite_setLoop a s _ _) rfl

theorem pollSensor_setLoop (i : ChannelId) (o : Origin) :
    pollSensor i o (s.setLoop a) = ((pollSensor i o s).1, (pollSensor i o s).2.setLoop a) := by
  unfold pollSensor
  rw [readSensor_setLoop]
  cases readSensor i s with
  | ok r t => rfl
  | err e t =>
    have hled : setRed true { (t.setLoop a).emitDiag e o with err := true } =
        (setRed true { t.emitDiag e o with err := true }).setLoop a :=
      setRed_setLoop a { t.emitDiag e o with err := true } true
    simp only [Res.setLoop, hled]
    cases setRed true { t.emitDiag e o with err := true } with
    | ok x u => rfl
    | err e u => rfl

theorem readSensors_setLoop : readSensors (s.setLoop a) = (readSensors s).setLoop a := by
  simp only [readSensors, pollSensor_setLoop]
  rfl

/-! ### The actions (R271 to R274) -/

theorem sendNibble_setLoop (n : BitVec 4) (rs : Bool) :
    sendNibble n rs (s.setLoop a) = (sendNibble n rs s).setLoop a := by
  simp only [sendNibble, writeB, regWrite_setLoop]
  exact andThen_setLoop _ fun _ t => regWrite_setLoop a t _ _

theorem send_setLoop (b : Byte) (rs : Bool) : send b rs (s.setLoop a) = (send b rs s).setLoop a := by
  unfold send
  rw [sendNibble_setLoop]
  exact andThen_setLoop _ fun _ t => sendNibble_setLoop a t _ _

theorem command_setLoop (b : Byte) : command b (s.setLoop a) = (command b s).setLoop a := by
  unfold command
  rw [apply_ite (Res.setLoop a), send_setLoop]
  refine if_congr Iff.rfl (andThen_setLoop _ fun _ t => ?_) rfl
  rw [settle_setLoop, ← apply_ite (State.setLoop a)]
  rfl

theorem putChars_setLoop (text : List Byte) : putChars text (s.setLoop a) = (putChars text s).setLoop a := by
  induction text generalizing s with
  | nil => rfl
  | cons c cs ih =>
    have hchar : putChar c (s.setLoop a) = (putChar c s).setLoop a := by
      unfold putChar
      rw [apply_ite (Res.setLoop a), command_setLoop, send_setLoop]
    rw [putChars, hchar]
    exact andThen_setLoop _ fun _ t => ih t

theorem message_setLoop (text : List Byte) : message text (s.setLoop a) = (message text s).setLoop a := by
  unfold message
  rw [apply_ite (Res.setLoop a), putChars_setLoop]
  rfl

theorem showText_setLoop (text : List Byte) : showText text (s.setLoop a) = (showText text s).setLoop a := by
  unfold showText
  rw [command_setLoop, andThen_setLoop _ fun _ t => message_setLoop a t text]
  cases (command cmdClear s).andThen fun _ t => message text t with
  | ok x t => rfl
  | err e t => rfl

theorem actOnMask_setLoop (mask : Byte) : actOnMask mask (s.setLoop a) = (actOnMask mask s).setLoop a := by
  unfold actOnMask
  rw [apply_ite (State.setLoop a)]
  refine if_congr Iff.rfl rfl ?_
  cases pressedButton mask with
  | some b => rfl
  | none =>
    simp only
    rw [apply_ite (State.setLoop a)]
    exact if_congr Iff.rfl (showText_setLoop a s _) rfl

theorem ackInt_setLoop : ackInt (s.setLoop a) = (ackInt s).setLoop a := by
  unfold ackInt
  rw [apply_ite (Res.setLoop a), regRead_setLoop]
  rfl

theorem readButtons_setLoop : readButtons (s.setLoop a) = (readButtons s).setLoop a := by
  unfold readButtons
  rw [apply_ite (Res.setLoop a), regRead_setLoop, andThen_setLoop _ fun _ _ => rfl]
  rfl

theorem buttonAction_setLoop : buttonAction (s.setLoop a) = (buttonAction s).setLoop a := by
  unfold buttonAction
  rw [apply_ite (State.setLoop a), ackInt_setLoop, andThen_setLoop _ fun _ t => readButtons_setLoop a t]
  refine if_congr Iff.rfl ?_ rfl
  cases (ackInt s).andThen fun _ t => readButtons t with
  | ok mask t => exact actOnMask_setLoop a t mask
  | err e t => rfl

theorem eventAction_setLoop (ev : Event) : eventAction ev (s.setLoop a) = (eventAction ev s).setLoop a := by
  cases ev with
  | displayTick =>
    unfold eventAction displayAction
    rw [apply_ite (State.setLoop a)]
    exact if_congr Iff.rfl (showText_setLoop a s _) rfl
  | hardwareInterrupt => exact buttonAction_setLoop a s
  | logTick => rfl
  | wakeRequest => rfl
  | timeout => rfl
  | stop => rfl

theorem afterWait_setLoop (ev : Event) :
    afterWait ev (s.setLoop a) = ((afterWait ev s).1, (afterWait ev s).2.setLoop a) := by
  have hstop : (s.setLoop a).interlude.stop = s.interlude.stop := by
    rw [interlude_setLoop]
    rfl
  by_cases h : ev = .stop ∨ s.interlude.stop = true
  · rw [afterWait_of_stop h, afterWait_of_stop (hstop ▸ h), interlude_setLoop]
    rfl
  · rw [afterWait, afterWait, if_neg h, if_neg (hstop ▸ h), interlude_setLoop, readSensors_setLoop,
      eventAction_setLoop]

end

/-! ## The end of a pass of SCHED.RUN (R279) -/

/-- What a pass of SCHED.RUN ends in, from the state of the same pass of SCHED.ITERATE. -/
def State.passed (t : State) : State :=
  if t.phase = .running then t.setLoop .running else (t.setLoop .idle).respond [0]

section

variable {s t u : State} {code code' : Byte}

/-- What a pass ends in does not look at `loop`. -/
theorem passed_eq_of_answered (h : t.answered code = u.answered code') : t.passed = u.passed := by
  have hidle : t.setLoop .idle = u.setLoop .idle := (respond_inj h).1
  have hphase : t.phase = u.phase := (congrArg State.phase hidle :)
  have hrunning : t.setLoop .running = u.setLoop .running := (congrArg (State.setLoop .running) hidle :)
  unfold State.passed
  rw [hphase]
  exact if_congr Iff.rfl hrunning (congrArg (State.respond [0]) hidle)

theorem passed_setLoop (a : Activity) (t : State) : (t.setLoop a).passed = t.passed := rfl

/-- A wait that ends, ends a pass of SCHED.RUN in what SCHED.ITERATE's end makes of it. -/
theorem tryWait_run (h : tryWait .iterate s = t.answered code) : tryWait .run s = t.passed := by
  unfold tryWait at h ⊢
  cases hwait : evalWait s with
  | none =>
    rw [hwait] at h
    cases congrArg State.loop h
  | some p =>
    rw [hwait] at h
    obtain ⟨u, code', hiterate, hrun⟩ := afterWaitOf_run p.1 p.2
    exact hrun.trans (passed_eq_of_answered (hiterate.symm.trans h))

theorem startPass_run (h : startPass .iterate s = t.answered code) : startPass .run s = t.passed := by
  by_cases hstop : s.stop = true
  · rw [startPass_of_stop _ hstop] at h ⊢
    exact passed_eq_of_answered (t := { s with phase := .stopped }) h
  · have hnotstop : s.stop = false := Bool.not_eq_true _ ▸ hstop
    rw [startPass_of_not_stop _ hnotstop] at h ⊢
    exact tryWait_run h

/-- A blocked pass ends as a blocked iteration in the same state would. -/
theorem tryWait_run_setLoop {p : Byte × State} (a : Activity) (h : waitOutcome s = some p) :
    ∃ (t : State) (code : Byte), tryWait .iterate (s.setLoop a) = t.answered code ∧ tryWait .run s = t.passed := by
  obtain ⟨code, b⟩ := p
  have hset : waitOutcome (s.setLoop a) = some (code, b.setLoop a) := by
    rw [waitOutcome_setLoop, h]
    rfl
  obtain ⟨ev, hcode, hrun⟩ := tryWait_of_waitOutcome (w := .run) h
  obtain ⟨ev', hcode', hiterate⟩ := tryWait_of_waitOutcome (w := .iterate) hset
  obtain rfl := Event.code_injective (hcode'.trans hcode.symm)
  refine ⟨(afterWait ev' (b.setLoop a)).2, (afterWait ev' (b.setLoop a)).1.code, hiterate, ?_⟩
  rw [hrun, afterWait_setLoop, passed_setLoop]
  rfl

/-! ## The start-up of SCHED.RUN -/

theorem exec_schedRun_started {x : Unit} (hphase : s.phase = .reset) (h : schedStart s = .ok x t) :
    exec .schedRun s = .next { t with loop := .running } := by
  simp only [exec, execSchedRun, hphase, h]

theorem exec_schedRun_failed {e : Err} (hphase : s.phase = .reset) (h : schedStart s = .err e t) :
    exec .schedRun s = .next (t.respond [e.code]) := by
  simp only [exec, execSchedRun, hphase, h]
  rfl

/-- SCHED.RUN starts up as SCHED.START does, but a start-up that succeeds has no response yet. -/
theorem exec_schedRun_of_schedStart (hphase : s.phase = .reset) :
    (exec .schedStart s = .next (t.respond [0]) → exec .schedRun s = .next { t with loop := .running }) ∧
      (exec .schedStart s = .next (t.respond [3]) → exec .schedRun s = .next (t.respond [3])) := by
  have hstart : exec .schedStart s = finish (schedStart s).noResult := rfl
  rw [hstart]
  cases hr : schedStart s with
  | ok x v =>
    rw [noResult_ok, finish_ok]
    refine ⟨fun h => ?_, fun h => ?_⟩
    · obtain ⟨rfl, -⟩ := respond_inj (Host.Outcome.next.inj h)
      exact exec_schedRun_started hphase hr
    · cases (respond_inj (Host.Outcome.next.inj h)).2
  | err e v =>
    rw [noResult_err, finish_err]
    refine ⟨fun h => ?_, fun h => (exec_schedRun_failed hphase hr).trans h⟩
    cases e <;> cases (respond_inj (Host.Outcome.next.inj h)).2

end

end Sys2Proof.Machine

/-! ## The statement -/

section

open Sys2Proof Sys2Proof.Machine

/-- Settles O59: a pass of SCHED.RUN ends where SCHED.ITERATE's does, whether it blocked or not. -/
theorem runResult : Obligations.RunResult := by
  unfold Obligations.RunResult
  intro s passed
  refine ⟨fun hfinal => ?final, fun hphase => ⟨fun t => ?fatal, fun t => ?started⟩,
    fun hphase => ⟨fun hstop => ?stop, fun t code hiterate => ?pass, fun hstop hwait => ?blocks⟩,
    fun hblocked => ⟨step_blockedIn_none hblocked, fun p hp => ?resumed⟩⟩
  case final => exact exec_refused (i := .schedRun) hfinal
  case fatal => exact (exec_schedRun_of_schedStart hphase).2
  case started => exact (exec_schedRun_of_schedStart hphase).1
  case stop =>
    rw [exec_schedRun_running hphase, startPass_of_stop _ hstop]
    rfl
  case pass =>
    rw [exec_schedIterate hphase] at hiterate
    rw [exec_schedRun_running hphase, startPass_run (Host.Outcome.next.inj hiterate)]
    rfl
  case blocks =>
    rw [exec_schedRun_running hphase, startPass_of_not_stop _ hstop, tryWait_of_waitOutcome_none hwait]
  case resumed =>
    have hother : State.blockedIn (s.setLoop (.waiting .iterate)) .iterate := ⟨hblocked.1, rfl⟩
    have hresumed : (s.setLoop (.waiting .iterate)).waitResumed = s.waitResumed.setLoop (.waiting .iterate) :=
      elapse_setLoop _ { s with agent := .loop }
    obtain ⟨t, code, hiterate, hrun⟩ := tryWait_run_setLoop (.waiting .iterate) hp
    refine ⟨t, code, ?_, (step_blockedIn hblocked).trans (congrArg _ hrun)⟩
    rw [← hiterate, ← hresumed]
    exact step_blockedIn hother

end

/-! # SCHED.START with every device answering (43_scheduler.md R261)

With O50. The state is kept as what the environment made of it (`E`) and what LOOP wrote (`L`): time and draws are
counted on the one, records and fields on the other. -/

namespace Sys2Proof.Machine

/-! ## Draws used up -/

/-- The draws of `t` are those of `s` after the first `n`. -/
def DrawsFrom (n : Nat) (s t : State) : Prop := ∀ k, t.drawAt k = s.drawAt (n + k)

section

variable {m n : Nat} {s t u : State}

theorem DrawsFrom.refl (s : State) : DrawsFrom 0 s s := fun k => by rw [Nat.zero_add]

theorem DrawsFrom.trans (hst : DrawsFrom m s t) (htu : DrawsFrom n t u) : DrawsFrom (m + n) s u := fun k => by
  rw [htu, hst, Nat.add_assoc]

theorem DrawsFrom.envFrom (h : DrawsFrom n s t) (l : State) : DrawsFrom n s (t.envFrom l) := fun k =>
  (drawAt_congr (s := t.envFrom l) (t := t) k rfl rfl).trans (h k)

theorem DrawsFrom.nextDraw (h : DrawsFrom n s t) : t.nextDraw = s.drawAt n := h 0

theorem drawsFrom_of_dropDraw (h : t.env = s.dropDraw.env ∧ t.drawn = s.dropDraw.drawn) : DrawsFrom 1 s t := fun k => by
  rw [drawAt_congr k h.1 h.2, Nat.add_comm]
  rfl

theorem drawsFrom_elapse (s : State) : DrawsFrom 1 s s.elapse := drawsFrom_of_dropDraw (elapse_draws s)

theorem drawsFrom_settle (s : State) : DrawsFrom 1 s s.settle := drawsFrom_of_dropDraw (settle_draws s)

theorem drawsFrom_elapsed (n : Nat) (s : State) : DrawsFrom n s (s.elapsed n) := by
  induction n generalizing s with
  | zero => exact .refl s
  | succ n ih =>
    have h := (drawsFrom_elapse s).trans (ih s.elapse)
    rwa [Nat.add_comm] at h

theorem busOk_iff (n : Nat) (s : State) : s.busOk n = true ↔ ∀ k < n, (s.drawAt k).outcome ≠ .busError := by
  refine ⟨fun h k hk => not_busError_of_busOk h hk, fun h => ?_⟩
  induction n generalizing s with
  | zero => rfl
  | succ n ih =>
    exact (busOk_succ n s).2 ⟨h 0 (Nat.succ_pos n), ih s.dropDraw fun k hk => h (k + 1) (Nat.succ_lt_succ hk)⟩

/-- Draws that are all answered are so from any point on. -/
theorem DrawsFrom.busOk (h : DrawsFrom m s t) (hok : s.busOk (m + n) = true) : t.busOk n = true := by
  rw [busOk_iff] at hok ⊢
  intro k hk
  rw [h]
  exact hok _ (Nat.add_lt_add_left hk m)

theorem busOk_of_le (h : s.busOk n = true) (hle : m ≤ n) : s.busOk m = true := by
  rw [busOk_iff] at h ⊢
  exact fun k hk => h k (hk.trans_le hle)

end

/-! ## Runs of bytes with every write acknowledged (R170, R172) -/

/-- The environment's part of sending these bytes. -/
def State.sentElapsed : List Sent → State → State
  | [], s => s
  | x :: xs, s => State.sentElapsed xs (if x.settle then (s.elapsed 4).settle else s.elapsed 4)

/-- The draws that sending these bytes takes: four writes each, and one of the settle delay. -/
def drawsOf : List Sent → Nat
  | [] => 0
  | x :: xs => (if x.settle then 5 else 4) + drawsOf xs

/-- LOOP's part of writing these bytes to bank B. -/
def State.bankBWritten (bytes : List Byte) (s : State) : State :=
  { s with trace := s.trace ++ bytes.map (wroteRecord 0x13), cacheB := bytes.getLastD s.cacheB }

/-- The writes of these bytes, with the red LED's bit of the cache. -/
def sentBytes (xs : List Sent) (cacheB : Byte) : List Byte := xs.flatMap fun x => sendBytes x.byte x.rs cacheB

section

variable {E L : State}

theorem wroteB_eq (bytes : List Byte) (s : State) :
    s.wroteB bytes = (s.elapsed bytes.length).envFrom (s.bankBWritten bytes) := by
  rw [State.wroteB, elapsed_eq]
  rfl

theorem bankBWritten_envFrom (bytes : List Byte) (s E L : State) :
    (s.envFrom L).envFrom ((E.envFrom L).bankBWritten bytes) = s.envFrom (L.bankBWritten bytes) := rfl

theorem getLastD_append (bs cs : List Byte) (d : Byte) : (bs ++ cs).getLastD d = cs.getLastD (bs.getLastD d) := by
  cases cs with
  | nil => rw [List.append_nil]; rfl
  | cons c cs => simp [List.getLastD_eq_getLast?]

theorem bankBWritten_append (bs cs : List Byte) (s : State) :
    s.bankBWritten (bs ++ cs) = (s.bankBWritten bs).bankBWritten cs := by
  simp only [State.bankBWritten, getLastD_append, List.map_append, List.append_assoc]

/-- A byte's writes depend on the cache through the red LED's bit. -/
theorem sendBytes_congr (b : Byte) (rs : Bool) {c d : Byte} (h : c &&& redMask = d &&& redMask) :
    sendBytes b rs c = sendBytes b rs d := by
  rw [sendBytes_eq, sendBytes_eq, lineWord_congr _ rs h, lineWord_congr _ rs h]

theorem sentBytes_congr (xs : List Sent) {c d : Byte} (h : c &&& redMask = d &&& redMask) :
    sentBytes xs c = sentBytes xs d := by
  simp only [sentBytes, sendBytes_congr _ _ h]

/-- Sending a byte keeps the red LED's bit. -/
theorem sendBytes_getLastD_red (b : Byte) (rs : Bool) (c d : Byte) :
    (sendBytes b rs c).getLastD d &&& redMask = c &&& redMask := by
  rw [sendBytes_eq]
  exact lineWord_red _ rs c

theorem sentBytes_getLastD_red (xs : List Sent) (c : Byte) :
    (sentBytes xs c).getLastD c &&& redMask = c &&& redMask := by
  induction xs using List.reverseRecOn with
  | nil => rfl
  | append_singleton xs x ih =>
    rw [sentBytes, List.flatMap_append, getLastD_append, List.flatMap_singleton]
    exact sendBytes_getLastD_red _ _ _ _

theorem drawsFrom_sentElapsed (xs : List Sent) (s : State) : DrawsFrom (drawsOf xs) s (s.sentElapsed xs) := by
  induction xs generalizing s with
  | nil => exact .refl s
  | cons x xs ih =>
    refine DrawsFrom.trans ?_ (ih _)
    split_ifs with hsettle
    · exact (drawsFrom_elapsed 4 s).trans (drawsFrom_settle _)
    · exact drawsFrom_elapsed 4 s

theorem sentElapsed_pub (xs : List Sent) (s : State) : (s.sentElapsed xs).pub = s.pub := by
  induction xs generalizing s with
  | nil => rfl
  | cons x xs ih =>
    rw [State.sentElapsed, ih]
    split_ifs with hsettle
    · rw [settle_pub, elapsed_pub]
    · rw [elapsed_pub]

theorem send_ok (b : Byte) (rs : Bool) (hpub : L.pub = E.pub) (hok : E.busOk 4 = true) :
    send b rs (E.envFrom L) = .ok () ((E.elapsed 4).envFrom (L.bankBWritten (sendBytes b rs L.cacheB))) := by
  have hok' : (E.envFrom L).busOk 4 = true :=
    (busOk_congr (s := E.envFrom L) (t := E) 4 rfl rfl).trans hok
  obtain ⟨-, hsend⟩ | ⟨k, hk, -, hfail, -⟩ := send_cases b rs (E.envFrom L)
  · have hlength : (sendBytes b rs (E.envFrom L).cacheB).length = 4 := rfl
    have hcache : (E.envFrom L).cacheB = L.cacheB := rfl
    rw [hsend, wroteB_eq, hlength, elapsed_envFrom 4 E L hpub, bankBWritten_envFrom, hcache]
  · exact absurd hfail (not_busError_of_busOk hok' hk)

theorem sendOne_ok (x : Sent) (hpub : L.pub = E.pub) (hok : E.busOk 4 = true) : sendOne x (E.envFrom L) =
    .ok () ((if x.settle then (E.elapsed 4).settle else E.elapsed 4).envFrom
      (L.bankBWritten (sendBytes x.byte x.rs L.cacheB))) := by
  rw [sendOne, send_ok _ _ hpub hok, andThen_ok]
  split_ifs with hsettle
  · rw [settle_envFrom _ (L.bankBWritten _) (hpub.trans (elapsed_pub 4 E).symm)]
  · rfl

/-- A run of bytes with every draw answered makes all its writes. -/
theorem sendList_ok (xs : List Sent) (hpub : L.pub = E.pub) (hok : E.busOk (drawsOf xs) = true) :
    sendList xs (E.envFrom L) =
      .ok () ((E.sentElapsed xs).envFrom (L.bankBWritten (sentBytes xs L.cacheB))) := by
  induction xs generalizing E L with
  | nil => simp [sendList, State.sentElapsed, State.bankBWritten, sentBytes]
  | cons x xs ih =>
    have hfour : E.busOk 4 = true := busOk_of_le hok (by rw [drawsOf]; split_ifs <;> omega)
    have hfirst := drawsFrom_sentElapsed [x] E
    have hrest : (E.sentElapsed [x]).busOk (drawsOf xs) = true := hfirst.busOk hok
    have hred : (sendBytes x.byte x.rs L.cacheB).getLastD L.cacheB &&& redMask = L.cacheB &&& redMask :=
      sendBytes_getLastD_red _ _ _ _
    rw [sendList, sendOne_ok x hpub hfour, andThen_ok]
    refine (ih (E := E.sentElapsed [x]) (L := L.bankBWritten (sendBytes x.byte x.rs L.cacheB))
      (hpub.trans (sentElapsed_pub [x] E).symm) hrest).trans ?_
    have hbytes : sentBytes xs (L.bankBWritten (sendBytes x.byte x.rs L.cacheB)).cacheB = sentBytes xs L.cacheB :=
      sentBytes_congr xs hred
    rw [hbytes, ← bankBWritten_append]
    rfl

end

/-! ## The units, with every device answering (R136, R175) -/

/-- The function set of LCD.INIT, without settle delays. -/
def functionSet : List Sent := [plainOf 0x33 false, plainOf 0x32 false, plainOf 0x28 false]

/-- The commands of LCD.RESET, with those after clear and home. -/
def resetCommands : List Sent := [commandOf 0x0C, commandOf 0x06, commandOf 0x01, commandOf 0x02]

theorem drawsOf_units : 6 + (drawsOf functionSet + drawsOf resetCommands) = 36 := by decide

/-- LOOP's part of LCD.INIT. -/
def State.displayUp (s : State) : State :=
  { s.bankBWritten (sentBytes (functionSet ++ resetCommands) s.cacheB) with
    lcdPresent := true, entry := 0b10, dctrl := 0b100 }

/-- LOOP's part of XM.INIT. -/
def State.expanderUp (s : State) : State := (s.initWrote 6 []).setPresent true

/-- The environment's part of bringing up both units. -/
def State.unitsElapsed (s : State) : State := ((s.elapsed 6).sentElapsed functionSet).sentElapsed resetCommands

section

variable {E L s : State}

theorem setPresent_envFrom (present : Bool) (E L : State) :
    (E.envFrom L).setPresent present = E.envFrom (L.setPresent present) := rfl

/-- LCD.INIT from its two runs of bytes, each in the state that the other left. -/
theorem lcdInit_of_runs {E' u : State} {bytes : List Byte} (hpresent : L.xmPresent = true)
    (hset : sendList functionSet (E.envFrom { L with lcdPresent := false }) =
      .ok () (E'.envFrom (State.bankBWritten bytes { L with lcdPresent := false })))
    (hreset : sendList resetCommands (E'.envFrom { L.bankBWritten bytes with
      lcdPresent := true, entry := 0b10, dctrl := 0b100 }) = .ok () u) :
    lcdInit (E.envFrom L) = .ok () u :=
  (lcdInit_of_functionSet_ok (s := E.envFrom L) hpresent hset).1 u hreset

theorem displayUp_eq (L : State) : L.displayUp = State.bankBWritten (sentBytes resetCommands L.cacheB)
    { L.bankBWritten (sentBytes functionSet L.cacheB) with
      lcdPresent := true, entry := 0b10, dctrl := 0b100 } := by
  have hbytes : sentBytes (functionSet ++ resetCommands) L.cacheB =
      sentBytes functionSet L.cacheB ++ sentBytes resetCommands L.cacheB := List.flatMap_append
  rw [State.displayUp, hbytes, bankBWritten_append]
  rfl

theorem lcdInit_ok (hpub : L.pub = E.pub) (hpresent : L.xmPresent = true)
    (hok : E.busOk (drawsOf functionSet + drawsOf resetCommands) = true) :
    lcdInit (E.envFrom L) =
      .ok () (((E.sentElapsed functionSet).sentElapsed resetCommands).envFrom L.displayUp) := by
  have hred : sentBytes resetCommands (L.bankBWritten (sentBytes functionSet L.cacheB)).cacheB =
      sentBytes resetCommands L.cacheB := sentBytes_congr _ (sentBytes_getLastD_red _ _)
  have hset := sendList_ok (E := E) (L := { L with lcdPresent := false }) functionSet hpub
    (busOk_of_le hok (Nat.le_add_right _ _))
  have hreset := sendList_ok (E := E.sentElapsed functionSet)
    (L := { L.bankBWritten (sentBytes functionSet L.cacheB) with lcdPresent := true, entry := 0b10, dctrl := 0b100 })
    resetCommands (hpub.trans (sentElapsed_pub _ _).symm) ((drawsFrom_sentElapsed functionSet E).busOk hok)
  simp only [hred] at hreset
  rw [displayUp_eq]
  exact lcdInit_of_runs hpresent hset hreset

theorem startUnits_ok (hok : s.busOk 36 = true) :
    startUnits s = s.unitsElapsed.envFrom s.expanderUp.displayUp := by
  have hexpander : triedUnit (xmInit s) .expander = (s.elapsed 6).envFrom s.expanderUp := by
    rw [xmInit_ok (busOk_of_le hok (by decide)), setPresent_envFrom]
    simp only [triedUnit, State.expanderUp]
  have hpresent : ((s.elapsed 6).envFrom s.expanderUp).xmPresent = true := rfl
  rw [← drawsOf_units] at hok
  have hdisplay := lcdInit_ok (E := s.elapsed 6) (L := s.expanderUp) (elapsed_pub 6 s).symm rfl
    ((drawsFrom_elapsed 6 s).busOk hok)
  rw [startUnits_eq, hexpander, if_pos hpresent, hdisplay]
  simp only [triedUnit, State.unitsElapsed]

theorem drawsFrom_unitsElapsed (s : State) : DrawsFrom 36 s s.unitsElapsed := by
  rw [← drawsOf_units]
  exact (drawsFrom_elapsed 6 s).trans
    ((drawsFrom_sentElapsed functionSet _).trans (drawsFrom_sentElapsed resetCommands _))

theorem unitsElapsed_eq (s : State) : s.unitsElapsed = (((s.elapsed 30).settle).elapsed 4).settle := by
  simp [State.unitsElapsed, State.sentElapsed, functionSet, resetCommands, plainOf, commandOf, ← elapsed_add]

/-- What the environment made of a state it made of another. -/
theorem envFrom_trans {s t u : State} (hst : t = t.envFrom s) (htu : u = u.envFrom t) : u = u.envFrom s := calc
  u = u.envFrom t := htu
  _ = u.envFrom (t.envFrom s) := congrArg u.envFrom hst
  _ = u.envFrom s := rfl

/-- The environment's part of start-up changes nothing that LOOP owns. -/
theorem startElapsed_eq (s : State) : s.unitsElapsed.elapsed 2 = (s.unitsElapsed.elapsed 2).envFrom s := by
  refine envFrom_trans (t := s.unitsElapsed) ?_ (elapsed_eq 2 _)
  rw [unitsElapsed_eq]
  exact envFrom_trans (envFrom_trans (envFrom_trans (elapsed_eq 30 s) (settle_eq _)) (elapsed_eq 4 _)) (settle_eq _)

theorem unitsElapsed_pub (s : State) : s.unitsElapsed.pub = s.pub := by
  rw [State.unitsElapsed, sentElapsed_pub, sentElapsed_pub, elapsed_pub]

/-! ## The two probes, then publish and arm (R261) -/

/-- LOOP's part of a read of a sensor that answers. -/
def State.polledOk (c : Channel) (d : Draw) (s : State) : State :=
  { s with trace := s.trace ++ [{ ops := pollOps c, outcome := some [[(sensedPair d).1, (sensedPair d).2]] }] }

theorem setTemp0_envFrom (o : Option Temp) (E L : State) :
    ({ E.envFrom L with temp0 := o } : State) = E.envFrom { L with temp0 := o } := rfl

theorem setTemp1_envFrom (o : Option Temp) (E L : State) :
    ({ E.envFrom L with temp1 := o } : State) = E.envFrom { L with temp1 := o } := rfl

theorem sensed_envFrom (hpub : L.pub = E.pub) (c : Channel) (d : Draw) :
    (E.envFrom L).sensed c d = E.elapse.envFrom (L.polledOk c d) := by
  rw [State.sensed, State.exchanged, elapse_envFrom E L hpub]
  rfl

theorem probe_ok (i : ChannelId) (o : Origin) (hpub : L.pub = E.pub) (hok : E.nextDraw.outcome ≠ .busError) :
    probeSensor i o (E.envFrom L) = .ok (sensedReading (L.channel i) E.nextDraw).value
      (E.elapse.envFrom (L.polledOk (L.channel i) E.nextDraw)) := by
  have hdraw : (E.envFrom L).nextDraw = E.nextDraw := rfl
  have hchannel : (E.envFrom L).channel i = L.channel i := by cases i <;> rfl
  rw [probeSensor_ok (s := E.envFrom L) i o hok, hchannel, hdraw, sensed_envFrom hpub]

/-- LOOP's part of bringing up both units, field by field. -/
theorem unitsUp_eq (s : State) : s.expanderUp.displayUp = { s with
    trace := s.trace ++
      [wroteRecord 0x00 0x3F, wroteRecord 0x01 0x00, wroteRecord 0x02 0x3F, wroteRecord 0x0C 0x3F,
       wroteRecord 0x04 0x1F, wroteRecord 0x08 0x00] ++
      ([0x33, 0x32, 0x28, 0x0C, 0x06, 0x01, 0x02].flatMap (sendBytes · false s.cacheB)).map (wroteRecord 0x13)
    shadow := { s.shadow with iodira := 0x3F, iodirb := 0x00, ipola := 0x3F, gppua := 0x3F, gpintena := 0x1F }
    xmPresent := true, lcdPresent := true, entry := 0b10, dctrl := 0b100
    cacheB := 0x08 ||| (s.cacheB &&& 0x01) } := by
  have hexpander : s.expanderUp = { s with
      trace := s.trace ++
        [wroteRecord 0x00 0x3F, wroteRecord 0x01 0x00, wroteRecord 0x02 0x3F, wroteRecord 0x0C 0x3F,
         wroteRecord 0x04 0x1F, wroteRecord 0x08 0x00]
      shadow := { s.shadow with iodira := 0x3F, iodirb := 0x00, ipola := 0x3F, gppua := 0x3F, gpintena := 0x1F }
      xmPresent := true } := by
    rw [State.expanderUp, State.initWrote, List.append_nil]
    rfl
  rw [hexpander]
  rfl

/-- Everything start-up does, as the environment's part and LOOP's part. -/
theorem exec_schedStart_ok (hphase : s.phase = .reset) (hok : s.busOk 38 = true) :
    exec .schedStart s = .next ((State.armed ((s.unitsElapsed.elapsed 2).envFrom
      { ((s.expanderUp.displayUp).polledOk s.ch0 (s.drawAt 36)).polledOk s.ch1 (s.drawAt 37) with
        temp0 := some (sensedReading s.ch0 (s.drawAt 36)).value
        temp1 := some (sensedReading s.ch1 (s.drawAt 37)).value })).respond [0]) := by
  have hdraw0 : s.unitsElapsed.nextDraw = s.drawAt 36 := (drawsFrom_unitsElapsed s).nextDraw
  have hdraw1 : s.unitsElapsed.elapse.nextDraw = s.drawAt 37 :=
    ((drawsFrom_unitsElapsed s).trans (drawsFrom_elapse _)).nextDraw
  have hpub : s.expanderUp.displayUp.pub = s.unitsElapsed.pub := (unitsElapsed_pub s).symm
  have hok0 : s.unitsElapsed.nextDraw.outcome ≠ .busError := by
    rw [hdraw0]
    exact not_busError_of_busOk hok (by decide)
  have hok1 : s.unitsElapsed.elapse.nextDraw.outcome ≠ .busError := by
    rw [hdraw1]
    exact not_busError_of_busOk hok (by decide)
  have hprobe0 := probe_ok .inside .sensor0 hpub hok0
  have hprobe1 := probe_ok (E := s.unitsElapsed.elapse)
    (L := { (s.expanderUp.displayUp).polledOk s.ch0 (s.drawAt 36) with
      temp0 := some (sensedReading s.ch0 (s.drawAt 36)).value })
    .outside .sensor1 (hpub.trans (elapse_pub _).symm) hok1
  have hch0 : s.expanderUp.displayUp.channel .inside = s.ch0 := rfl
  have hch1 : State.channel { (s.expanderUp.displayUp).polledOk s.ch0 (s.drawAt 36) with
      temp0 := some (sensedReading s.ch0 (s.drawAt 36)).value } .outside = s.ch1 := rfl
  rw [hdraw0, hch0] at hprobe0
  rw [hdraw1, hch1] at hprobe1
  rw [exec_schedStart hphase, startUnits_ok (busOk_of_le hok (by decide)), hprobe0, andThen_ok,
    setTemp0_envFrom, hprobe1, andThen_ok, setTemp1_envFrom, noResult_ok, finish_ok]
  rfl

end

end Sys2Proof.Machine

/-! ## The statement -/

section

open Sys2Proof Sys2Proof.Machine

/-- Settles O50: the units' writes, the probes and the arming, each from the draws its predecessors left. -/
theorem startBringsUpEverything : Obligations.StartBringsUpEverything := by
  unfold Obligations.StartBringsUpEverything
  intro s hphase hok r0 r1 e
  have hunits : s.unitsElapsed.elapsed 2 = e := by rw [unitsElapsed_eq]
  have hloop : e = e.envFrom s := hunits ▸ startElapsed_eq s
  rw [exec_schedStart_ok hphase hok, hunits, unitsUp_eq]
  clear_value e
  rw [hloop]
  simp only [State.polledOk, List.append_assoc, List.singleton_append]
  rfl

end
